-- ==== Sys2Proof/Word.lean ====
section
/-! DEFINITION. The plain types every layer of the model shares: bytes, digests and finite maps. -/

namespace Sys2Proof

/-- A byte is 8 bits (00_scope, Conventions, "Sizes"). -/
abbrev Byte := BitVec 8

/-- The 256-bit value computed over a chunk's bytes (R39). Byte 0 is the most significant byte. -/
abbrev Digest := BitVec 256

/-- A finite map from numbers, kept as a list of pairs with strictly rising keys, so that equal maps
are equal data. -/
abbrev Assoc (α : Type) := List (Nat × α)

end Sys2Proof
end

