-- ==== Sys2Proof/Config.lean ====
section
/-! DEFINITION. What one part fixes: the capacities of 00_scope ("Capacities") and the values that the
manual leaves open, which are opaque constants with no body. -/

namespace Sys2Proof.Config

/-- Capacity of one slot's intake buffer (R6). -/
abbrev intakeBytes : Nat := 262144
/-- Records a stream may form (R20). -/
abbrev recordLimit : Nat := 1048576
/-- Records a block may hold (R104). -/
abbrev blockRecords : Nat := 4096
/-- Bytes of one slab (R60). -/
abbrev slabBytes : Nat := 262144
/-- Slabs of one segment (R60). -/
abbrev slabsPerSegment : Nat := 32
/-- Bytes of the trailer header and of each trailer entry (R61). -/
abbrev trailerUnit : Nat := 64
/-- Entries the recipe catalog may hold (R106). -/
abbrev catalogCapacity : Nat := 4096
/-- Branches (R125). -/
abbrev branchCount : Nat := 1024
/-- The highest value of a 48-bit counter (R27, R176). -/
abbrev counterMax : Nat := 281474976710655
/-- The pinned value of a slab's reference count (R72). -/
abbrev countMax : Nat := 4294967295
/-- The next sequence at which every advance is refused (R68). -/
abbrev sequenceEnd : Nat := 4294967295
/-- The next recipe number once 2^32 - 1 has been given out (R107). (DEDUCED, log 25) -/
abbrev recipeNumbersUsedUp : Nat := 4294967296
/-- The highest day (R125). -/
abbrev dayMax : Nat := 65535
/-- Suspensions an erase may take (R91). -/
abbrev suspendLimit : Nat := 15
/-- Reads the rebuild keeps outstanding at one bank (R85, R156). -/
abbrev rebuildReads : Nat := 32
/-- Credits the reclaim engine may hold (R147). -/
abbrev creditMax : Nat := 65535
/-- The largest frame payload (R180). -/
abbrev payloadMax : Nat := 8256

/-- The one-way digest function (R39), whose construction 00_scope puts outside the manual: a fixed
function of the chunk's bytes and of nothing else. No value of it can be proved. (DESIGN CHOICE, log 1) -/
opaque digest : List Byte → Digest

/-- A byte the store is left holding where the manual does not say which: after a failed program
(R95), an interrupted program or erase (R100) or a failed erase (R96). The first argument is the draw,
the second the place of the byte in its slab. (DESIGN CHOICE, log 2) -/
opaque freeByte : Nat → Nat → Byte

/-- Does a program that ends FAIL leave its trailer header area overwritten with 00h (R95)? It does when the
read-back found a difference and the area took the write, and it does not when the write could not be made or
the area did not take it. The manual does not say which befalls a program; the argument is the draw.
(DESIGN CHOICE, log 2) -/
opaque headerCleared : Nat → Bool

/-- The place fields of a trailer header written for a slab that has no place (R64, R80): segment and
slab index, by slab sequence. The manual gives no value. (DESIGN CHOICE, log 3) -/
opaque unassignedPlace : Nat → BitVec 16 × BitVec 8

end Sys2Proof.Config
end

