-- ==== Sys2Proof/Syntax.lean ====
section
/-! DEFINITION. The commands of the part: one constructor per row of spec/opcode_table.json. -/

namespace Sys2Proof

/-- A sound request frame less its kind byte and its check (R180, R181, 11.6): the kind is the
constructor that carries the frame. -/
structure Frame where
  /-- Echoed in the reply (R182). -/
  tag : BitVec 16
  /-- 00h in a well-formed request (R181). -/
  flags : Byte
  /-- The request's fields, laid out as 11.6 gives. -/
  payload : List Byte
  deriving DecidableEq, Repr

/-- How a bank operation ended (R86, R87, R88). -/
inductive OpResult where
  | ok
  | fail
  deriving DecidableEq, Repr

/-- The commands: requests over the host link, events of the link and the lines, and events inside the
part, each one whole and indivisible step (95_what_each_step_holds). What an event of the store or of the lines
brings with it is an operand. (DESIGN CHOICE, log 27) -/
inductive Instr where
  | identify (f : Frame)
  | start (f : Frame)
  | stop (f : Frame)
  | reset (f : Frame)
  | writeSetting (f : Frame)
  | readSettings (f : Frame)
  | openStream (f : Frame)
  | streamData (f : Frame)
  | closeStream (f : Frame)
  | abortStream (f : Frame)
  | retireStream (f : Frame)
  | setStreamOption (f : Frame)
  | takeNotice (f : Frame)
  | setNoticeMask (f : Frame)
  | takeSnapshot (f : Frame)
  | readSnapshot (f : Frame)
  | setDay (f : Frame)
  | readRetention (f : Frame)
  | setHold (f : Frame)
  | clearHold (f : Frame)
  | setFreeze (f : Frame)
  | clearFreeze (f : Frame)
  | listRecipes (f : Frame)
  | readRecipeHead (f : Frame)
  | readRecipe (f : Frame)
  | readChunk (f : Frame)
  | storeStatus (f : Frame)
  | clearStoreFaults (f : Frame)
  | reclaim (f : Frame)
  /-- The bytes the link delivered, header to check, which fail R180. -/
  | badFrame (bytes : List Byte)
  /-- A sound frame whose kind is not 01h to 1Dh (R181). -/
  | unknownRequestKind (kind : Byte) (f : Frame)
  | frameTransmit
  | resetTakesEffect
  | rstAssert
  | rstRelease
  | powerOn
  | powerLoss
  /-- The level the CUSTODY line takes (R139). -/
  | custodyChange (asserted : Bool)
  /-- The slot whose chunker takes its next intake byte (R30). -/
  | scanByte (slot : Fin 64)
  | digestComplete
  | lookupTaken
  /-- The slot and the verify for which the comparison was issued (R52, R56). -/
  | verifyCompare (slot : Fin 64) (ticket : Nat)
  | verifyReadComplete (bank : Fin 4) (result : OpResult)
  | programComplete (bank : Fin 4) (result : OpResult)
  | walkBlockReadComplete (bank : Fin 4) (result : OpResult)
  | restoreReadComplete (bank : Fin 4) (result : OpResult)
  | scanReadComplete (bank : Fin 4) (result : OpResult)
  | recountReadComplete (bank : Fin 4) (result : OpResult)
  | eraseComplete (bank : Fin 4) (result : OpResult)
  | retentionWriteComplete
  /-- The bank whose outstanding condemn PLU takes (R149). -/
  | condemnTaken (bank : Fin 4)
  deriving DecidableEq, Repr

end Sys2Proof
end

