-- ==== Sys2Proof/Machine/Operands.lean ====
section
/-! DEFINITION. Numbers as bytes, the 32-bit cyclic check, and the frame layout (R61, R180, R181, 11.6). -/

namespace Sys2Proof.Machine

/-- A number in `n` bytes, most significant byte first (R61, 11.1). -/
def beBytes : Nat → Nat → List Byte
  | 0, _ => []
  | n + 1, v => BitVec.ofNat 8 (v / 256 ^ n) :: beBytes n v

/-- The number that bytes hold, most significant byte first. -/
def ofBytes (bs : List Byte) : Nat := bs.foldl (fun a b => a * 256 + b.toNat) 0

/-- The `n`-byte number at offset `off` of a layout. -/
def field (bs : List Byte) (off n : Nat) : Nat := ofBytes ((bs.drop off).take n)

/-- A digest as its bytes 0 to 31 in order (3.1, R61). -/
def digestBytes (d : Digest) : List Byte := beBytes 32 d.toNat

/-- The digest that 32 bytes hold. -/
def digestAt (bs : List Byte) (off : Nat) : Digest := BitVec.ofNat 256 (field bs off 32)

/-- One bit of the check: the generator 04C11DB7h in reflected order (R61). -/
def crcBit (r : BitVec 32) : BitVec 32 :=
  if r.getLsbD 0 then (r >>> 1) ^^^ 0xEDB88320#32 else r >>> 1

/-- One byte of the check, fed in least significant bit first (R61). -/
def crcByte (r : BitVec 32) (b : Byte) : BitVec 32 :=
  crcBit (crcBit (crcBit (crcBit (crcBit (crcBit (crcBit (crcBit (r ^^^ b.setWidth 32))))))))

/-- The fixed 32-bit cyclic check of slab images and frames (R61). -/
def crc32 (bs : List Byte) : BitVec 32 := bs.foldl crcByte 0xFFFFFFFF#32 ^^^ 0xFFFFFFFF#32

/-- The check as the four bytes that a frame or an image carries. -/
def checkBytes (bs : List Byte) : List Byte := beBytes 4 (crc32 bs).toNat

/-- A count carried in one byte, where 00h stands for 256 (R181). -/
def countOf256 (n : Nat) : Nat := if n = 0 then 256 else n

/-- Is this a kind byte of a request, 01h to 1Dh (R181)? -/
def isRequestKind (k : Byte) : Bool := 1 ≤ k.toNat && k.toNat ≤ 29

/-- The payload lengths that the table of R181 allows for a request kind. -/
def lengthAllowed (kind len : Nat) : Bool :=
  match kind with
  | 0x01 | 0x02 | 0x03 | 0x04 | 0x0D | 0x15 | 0x16 | 0x1B | 0x1C => len == 0
  | 0x05 => len == 5
  | 0x06 | 0x12 => len == 3
  | 0x07 => len == 28
  | 0x08 => 2 ≤ len && len ≤ 8193
  | 0x09 | 0x0A | 0x0B | 0x10 | 0x1D => len == 1
  | 0x0C | 0x11 | 0x18 => len == 4
  | 0x0E | 0x13 | 0x14 => len == 2
  | 0x0F => 1 ≤ len && len ≤ 65
  | 0x17 => len == 6
  | 0x19 => len == 9
  | 0x1A => len == 10
  | _ => false

/-- The bytes of a frame: header, payload and check (11.1, 11.6). -/
def frameBytes (kind flags : Byte) (tag : BitVec 16) (payload : List Byte) : List Byte :=
  let body := kind :: flags :: (beBytes 2 tag.toNat ++ beBytes 2 payload.length ++ payload)
  body ++ checkBytes body

/-- Does a delivered frame fail its integrity check (R180): the number of bytes differs from 10 plus the
payload length field, that field exceeds 8,256, or the check does not match? -/
def frameIsBad (bs : List Byte) : Bool :=
  let len := field bs 4 2
  bs.length != 10 + len || decide (Config.payloadMax < len) ||
    bs.drop (6 + len) != checkBytes (bs.take (6 + len))

end Sys2Proof.Machine
end

