-- ==== Sys2Proof/Decode.lean ====
section
/-! DEFINITION. Commands from the outside: no row of spec/opcode_table.json gives bits of its own, so no
table word spells a command; the commands of the link are spelled by frames (R180, R181, 11.6). -/

namespace Sys2Proof

/-- The command that a word spells by the table's bits. No row gives any. (log 13) -/
def decodeTableWord (_nbits _w : Nat) : Option Instr := none

/-- The request that a kind byte names, with its frame (R181). -/
def requestOf (kind : Byte) (f : Frame) : Instr :=
  match kind.toNat with
  | 0x01 => .identify f
  | 0x02 => .start f
  | 0x03 => .stop f
  | 0x04 => .reset f
  | 0x05 => .writeSetting f
  | 0x06 => .readSettings f
  | 0x07 => .openStream f
  | 0x08 => .streamData f
  | 0x09 => .closeStream f
  | 0x0A => .abortStream f
  | 0x0B => .retireStream f
  | 0x0C => .setStreamOption f
  | 0x0D => .takeNotice f
  | 0x0E => .setNoticeMask f
  | 0x0F => .takeSnapshot f
  | 0x10 => .readSnapshot f
  | 0x11 => .setDay f
  | 0x12 => .readRetention f
  | 0x13 => .setHold f
  | 0x14 => .clearHold f
  | 0x15 => .setFreeze f
  | 0x16 => .clearFreeze f
  | 0x17 => .listRecipes f
  | 0x18 => .readRecipeHead f
  | 0x19 => .readRecipe f
  | 0x1A => .readChunk f
  | 0x1B => .storeStatus f
  | 0x1C => .clearStoreFaults f
  | 0x1D => .reclaim f
  | _ => .unknownRequestKind kind f

/-- The command that the bytes of a delivered frame spell: BAD_FRAME where they fail R180, and otherwise the
request of their kind byte, or UNKNOWN_REQUEST_KIND. -/
def decodeFrame (bytes : List Byte) : Instr :=
  if Machine.frameIsBad bytes then .badFrame bytes
  else requestOf (bytes.headD 0#8)
    ⟨BitVec.ofNat 16 (Machine.field bytes 2 2), (bytes.drop 1).headD 0#8,
      (bytes.drop 6).take (Machine.field bytes 4 2)⟩

/-- The kind byte and the frame of a link command, or none for a command that no sound frame spells. -/
def frameOf : Instr → Option (Byte × Frame)
  | .identify f => some (0x01#8, f)
  | .start f => some (0x02#8, f)
  | .stop f => some (0x03#8, f)
  | .reset f => some (0x04#8, f)
  | .writeSetting f => some (0x05#8, f)
  | .readSettings f => some (0x06#8, f)
  | .openStream f => some (0x07#8, f)
  | .streamData f => some (0x08#8, f)
  | .closeStream f => some (0x09#8, f)
  | .abortStream f => some (0x0A#8, f)
  | .retireStream f => some (0x0B#8, f)
  | .setStreamOption f => some (0x0C#8, f)
  | .takeNotice f => some (0x0D#8, f)
  | .setNoticeMask f => some (0x0E#8, f)
  | .takeSnapshot f => some (0x0F#8, f)
  | .readSnapshot f => some (0x10#8, f)
  | .setDay f => some (0x11#8, f)
  | .readRetention f => some (0x12#8, f)
  | .setHold f => some (0x13#8, f)
  | .clearHold f => some (0x14#8, f)
  | .setFreeze f => some (0x15#8, f)
  | .clearFreeze f => some (0x16#8, f)
  | .listRecipes f => some (0x17#8, f)
  | .readRecipeHead f => some (0x18#8, f)
  | .readRecipe f => some (0x19#8, f)
  | .readChunk f => some (0x1A#8, f)
  | .storeStatus f => some (0x1B#8, f)
  | .clearStoreFaults f => some (0x1C#8, f)
  | .reclaim f => some (0x1D#8, f)
  | .unknownRequestKind kind f => some (kind, f)
  | .badFrame _ => none
  | .frameTransmit => none
  | .resetTakesEffect => none
  | .rstAssert => none
  | .rstRelease => none
  | .powerOn => none
  | .powerLoss => none
  | .custodyChange _ => none
  | .scanByte _ => none
  | .digestComplete => none
  | .lookupTaken => none
  | .verifyCompare _ _ => none
  | .verifyReadComplete _ _ => none
  | .programComplete _ _ => none
  | .walkBlockReadComplete _ _ => none
  | .restoreReadComplete _ _ => none
  | .scanReadComplete _ _ => none
  | .recountReadComplete _ _ => none
  | .eraseComplete _ _ => none
  | .retentionWriteComplete => none
  | .condemnTaken _ => none

/-- The bytes of the frame that spells a request (11.6). -/
def encodeFrame (i : Instr) : Option (List Byte) :=
  (frameOf i).map (fun x => Machine.frameBytes x.1 x.2.flags x.2.tag x.2.payload)

end Sys2Proof
end

