-- ==== Sys2Proof/Machine/State.lean ====
section
/-! DEFINITION. The state of the part as plain data: the eleven blocks of 00_scope, the segment store,
the lines, and the queue of commands. -/

namespace Sys2Proof.Machine

/-! ## Why a step can stop -/

/-- The cause that an event command needs and that the state does not hold. -/
inductive Missing where
  /-- A frame delivered as bad passes R180. -/
  | badFrame
  /-- A frame delivered with an unknown kind carries a request kind (R181). -/
  | unknownKind
  /-- The transmit queue is empty, or the Reset reply is on the wire (R183, R188). -/
  | frameToSend
  /-- The reply to a Reset is not on the wire (R188). -/
  | resetReply
  /-- The slot is not SCANNING, or its chunker has taken every intake byte (R10, R30). -/
  | byteToScan
  /-- The Digest Engine is idle (R11). -/
  | digest
  /-- The lookup queue is empty (R44). -/
  | lookup
  /-- The bank does not run a read of this requester (R89). -/
  | runningRead
  /-- The bank does not run a program (R86). -/
  | runningProgram
  /-- The bank does not run an erase (R88). -/
  | runningErase
  /-- No retention write is in flight (R126). -/
  | retentionWrite
  /-- The bank has no condemn outstanding (R148). -/
  | condemn
  deriving DecidableEq, Repr

/-- Why the part cannot take a step. -/
inductive Fault where
  /-- Raised by an event command whose cause the state does not hold (a completion at a bank that runs
  nothing, say). The manual gives such an event no effect, because it does not happen. Safe: the model
  stops where the hardware has no step. (DESIGN CHOICE, log 4) -/
  | cannotOccur (what : Missing)
  deriving DecidableEq, Repr

/-- Why a command has no meaning. -/
inductive Refusal where
  /-- Raised by an arm of exec whose command has no meaning yet. Safe. No arm raises it. -/
  | notModelled (mnemonic : String)
  deriving DecidableEq, Repr

/-! ## Stream Intake (chapters 1 and 2) -/

/-- The states of a slot (1.2). -/
inductive SlotState where
  | free
  | opened
  | draining
  | committing
  | done
  deriving DecidableEq, Repr

/-- The phases of a slot (1.2). A slot with none holds `none`. -/
inductive Phase where
  | scanning
  | digestWait
  | digesting
  | lookup
  | verifying
  | deferred
  deriving DecidableEq, Repr

/-- How a stream ended (1.1). -/
inductive StreamOutcome where
  | committed
  | aborted
  deriving DecidableEq, Repr

/-- What a DEFERRED slot waits to place (R16). A slot that waits for nothing holds `none`. -/
inductive Item where
  | chunk
  | block
  | head
  deriving DecidableEq, Repr

/-- Why a stream stopped taking data (R19). A stream that still does holds `none`. -/
inductive CloseReason where
  | ended
  | count
  | limit
  | abort
  deriving DecidableEq, Repr

/-- Per-stream control of hit verification (R13, R26). -/
inductive VerifyOverride where
  | default
  | on
  | off
  deriving DecidableEq, Repr

/-- The five chunking values of a profile (R34). -/
structure Profile where
  min : Nat
  tgt : Nat
  max : Nat
  d1 : Nat
  d2 : Nat
  deriving DecidableEq, Repr

/-- The rolling state of the boundary search (R31). The window is in stream order, oldest first. -/
structure Chunker where
  window : List Byte
  a : Nat
  b : Nat
  position : Nat
  len : Nat
  deriving DecidableEq, Repr

/-- The chunk cut and not yet recorded; its bytes are the oldest of the intake (1.1). -/
structure Hand where
  length : Nat
  digest : Option Digest
  deriving DecidableEq, Repr

/-- The eleven counters of a stream (R27). -/
structure StreamCounters where
  received : Nat
  chunked : Nat
  overrun : Nat
  dropped : Nat
  chunks : Nat
  newChunks : Nat
  dupChunks : Nat
  newBytes : Nat
  dupBytes : Nat
  unindexed : Nat
  collisions : Nat
  deriving DecidableEq, Repr

/-- What is captured when a stream reaches DONE (1.1). -/
structure Summary where
  outcome : StreamOutcome
  reason : Option CloseReason
  recipe : Nat
  bytesChunked : Nat
  records : Nat
  newChunks : Nat
  dupChunks : Nat
  deriving DecidableEq, Repr

/-- One stream context (1.1). Lengths and counts are plain numbers. (DEDUCED, log 28) -/
structure Slot where
  state : SlotState
  phase : Option Phase
  outcome : Option StreamOutcome
  branch : Nat
  label : List Byte
  profileNo : Nat
  profile : Profile
  openDay : Nat
  retentionDays : Nat
  expiryDay : Nat
  declared : Nat
  accepted : Nat
  recipe : Nat
  intake : List Byte
  chunker : Chunker
  hand : Option Hand
  item : Option Item
  records : Nat
  headSeq : Option Nat
  watchOn : Bool
  watchLevel : Nat
  verifyOverride : VerifyOverride
  closeReason : Option CloseReason
  summary : Option Summary
  counters : StreamCounters
  deriving DecidableEq, Repr

/-- The chunker after a reset and at Open Stream (R31). -/
def emptyChunker : Chunker := ⟨[], 0, 0, 0, 0⟩

/-- Counters at 0 (R1, R27). -/
def zeroStreamCounters : StreamCounters := ⟨0, 0, 0, 0, 0, 0, 0, 0, 0, 0, 0⟩

/-- A slot after any reset (R1). -/
def freeSlot : Slot where
  state := .free
  phase := none
  outcome := none
  branch := 0
  label := List.replicate 16 0#8
  profileNo := 0
  profile := ⟨0, 0, 0, 0, 0⟩
  openDay := 0
  retentionDays := 0
  expiryDay := 0
  declared := 0
  accepted := 0
  recipe := 0
  intake := []
  chunker := emptyChunker
  hand := none
  item := none
  records := 0
  headSeq := none
  watchOn := false
  watchLevel := 64
  verifyOverride := .default
  closeReason := none
  summary := none
  counters := zeroStreamCounters

/-- The Digest Engine (R11): the slot whose chunk it digests, and the slot it last served. -/
structure Dge where
  current : Option (Fin 64)
  lastServed : Fin 64
  deriving DecidableEq, Repr

/-! ## The Dedup Index (chapter 3) -/

/-- An index entry (R41). -/
structure IndexEntry where
  digest : Digest
  length : Nat
  seq : Nat
  offset : Nat
  deriving DecidableEq, Repr

/-- A lookup (3.2). -/
structure Lookup where
  slot : Fin 64
  digest : Digest
  length : Nat
  deriving DecidableEq, Repr

/-- A verify of the verify table (R52). `copied` holds the stored bytes of a slab that was pending when
the verify began; `ticket` tells one slot's verifies apart (R56). (DESIGN CHOICE, log 20) -/
structure Verify where
  ticket : Nat
  seq : Nat
  offset : Nat
  length : Nat
  copied : Option (List Byte)
  deriving DecidableEq, Repr

/-- The eight index counters (R58). -/
structure DixCounters where
  lookups : Nat
  hits : Nat
  misses : Nat
  staleHits : Nat
  evictions : Nat
  unindexed : Nat
  collisions : Nat
  verifyFaults : Nat
  deriving DecidableEq, Repr

/-- The index, keyed by bucket times 8 plus way; the lookup queue, oldest first; the verify table. -/
structure Dix where
  index : Assoc IndexEntry
  lookups : List Lookup
  verifies : Vector (Option Verify) 64
  nextTicket : Nat
  counters : DixCounters
  deriving DecidableEq, Repr

/-! ## The Placement Unit (chapter 4) -/

/-- A physical slab: its segment and its slab index (R60). -/
structure Place where
  segment : Nat
  slab : Nat
  deriving DecidableEq, Repr

/-- What a slab's object is, with the fields its trailer entry carries (R61). -/
inductive ObjectKind where
  | chunk (digest : Digest)
  | recipeBlock (recipe blockIndex : Nat)
  | recipeHead (recipe : Nat)
  deriving DecidableEq, Repr

/-- A trailer entry (R61). -/
structure TrailerEntry where
  kind : ObjectKind
  offset : Nat
  length : Nat
  deriving DecidableEq, Repr

/-- The states of a fill buffer in use (R63); a FREE buffer is `none`. -/
inductive BufferState where
  | filling
  | queued
  | programming
  deriving DecidableEq, Repr

/-- A fill buffer in use (R63). `data` is the objects' bytes, packed from offset 0; `entries` the trailer
entries in object order; `header` the place written into the trailer header, once it is written. The
bytes between are 00h, so the 262,144 bytes of the image follow from these. -/
structure FillBuffer where
  state : BufferState
  seq : Nat
  data : List Byte
  entries : List TrailerEntry
  header : Option (BitVec 16 × BitVec 8)
  deriving DecidableEq, Repr

/-- A slab map entry (R70): the physical slab, or none while a retarget waits, and the reference count.
Its state is that of the buffer which holds the sequence, and PROGRAMMED when none does. (DEDUCED, log 21) -/
structure SlabEntry where
  place : Option Place
  count : Nat
  deriving DecidableEq, Repr

/-- The states of a segment (R73). An OPEN segment carries how many of its slabs have been given out. (log 21) -/
inductive SegState where
  | free
  | opened (given : Nat)
  | closed
  | condemned
  | erasing
  | retired
  deriving DecidableEq, Repr

/-- The Placement Unit. The cursor's filling slab is the buffer in state FILLING (R66). -/
structure Plu where
  buffers : Vector (Option FillBuffer) 2
  nextSeq : Option Nat
  map : Assoc SlabEntry
  segments : Assoc SegState
  waitList : List Nat
  floor : Option Nat
  deriving DecidableEq, Repr

/-! ## The Store Controller (chapter 5) -/

/-- Who asked for a read (R89). -/
inductive Requester where
  | verify (slot : Fin 64) (ticket : Nat)
  | walk
  | restore (readSlot : Fin 16)
  | scan
  | recount (recipe blockIndex : Nat)
  deriving DecidableEq, Repr

/-- A read of a run of one physical slab (R87). -/
structure ReadJob where
  who : Requester
  place : Place
  offset : Nat
  length : Nat
  deriving DecidableEq, Repr

/-- A running operation with its target (R84). -/
inductive BankOp where
  | program (seq : Nat) (place : Place)
  | read (job : ReadJob)
  | erase (segment : Nat)
  deriving DecidableEq, Repr

/-- The condition of a held erase (R84). -/
inductive EraseCondition where
  | waiting
  | running
  | suspended
  deriving DecidableEq, Repr

/-- A held erase with its suspend count (R84). -/
structure HeldErase where
  segment : Nat
  condition : EraseCondition
  suspends : Nat
  deriving DecidableEq, Repr

/-- One value for each kind of operation: program, read, erase (R84, R97). -/
structure PerKind (α : Type) where
  program : α
  read : α
  erase : α
  deriving DecidableEq, Repr

/-- The three kinds of failure (R97). -/
inductive FaultKind where
  | program
  | read
  | erase
  deriving DecidableEq, Repr

/-- One bank machine (R84). -/
structure Bank where
  running : Option BankOp
  readQueue : List ReadJob
  programQueue : List Nat
  held : Option HeldErase
  flags : PerKind Bool
  faults : PerKind Nat
  deriving DecidableEq, Repr

/-- A bank machine after any reset (R84). -/
def idleBank : Bank := ⟨none, [], [], none, ⟨false, false, false⟩, ⟨0, 0, 0⟩⟩

/-- The Store Controller: four bank machines and the last fault (R84, R97). -/
structure Stc where
  banks : Vector Bank 4
  lastFault : Option (Fin 4 × FaultKind)
  deriving DecidableEq, Repr

/-! ## The Recipe Unit (chapter 6) -/

/-- A record (R102). -/
structure Record where
  digest : Digest
  seq : Nat
  offset : Nat
  length : Nat
  deriving DecidableEq, Repr

/-- A slot's record buffer with its next block index (R103). -/
structure RecordBuffer where
  records : List Record
  nextBlock : Nat
  deriving DecidableEq, Repr

/-- Where an object lies: slab sequence and offset. -/
structure Location where
  seq : Nat
  offset : Nat
  deriving DecidableEq, Repr

/-- The states of a catalog entry (R106). -/
inductive RecipeState where
  | opened
  | committing
  | live
  | queued
  | releasing
  deriving DecidableEq, Repr

/-- The job of a QUEUED or RELEASING entry (R106). -/
inductive Job where
  | release
  | abort
  deriving DecidableEq, Repr

/-- A catalog entry less its recipe number, which is its key (R106). -/
structure Recipe where
  branch : Nat
  label : List Byte
  profileNo : Nat
  openDay : Nat
  retentionDays : Nat
  expiryDay : Nat
  byteTotal : Nat
  recordCount : Nat
  blockCount : Nat
  closeReason : Option CloseReason
  blocks : List Location
  head : Option Location
  state : RecipeState
  job : Option Job
  damaged : Bool
  deriving DecidableEq, Repr

/-- The running walk: its recipe and the index of the block it has asked for (R113). -/
structure Walk where
  recipe : Nat
  block : Nat
  deriving DecidableEq, Repr

/-- The six counters of the Recipe Unit (R118). -/
structure RcuCounters where
  committed : Nat
  released : Nat
  abortJobs : Nat
  walksReturned : Nat
  walkReadFaults : Nat
  leaked : Nat
  deriving DecidableEq, Repr

/-- The Recipe Unit. `nextRecipe` is none before a rebuild (R107). -/
structure Rcu where
  buffers : Vector RecordBuffer 64
  catalog : Assoc Recipe
  nextRecipe : Option Nat
  releaseQueue : List Nat
  walk : Option Walk
  counters : RcuCounters
  deriving DecidableEq, Repr

/-! ## Retention Control (chapter 7) -/

/-- The retention memory (R125): the values in force. `holds` maps a held branch to its start day. -/
structure RetentionMemory where
  day : Nat
  freeze : Bool
  holds : Assoc Nat
  deriving DecidableEq, Repr

/-- A retention write with its target and value (R126). -/
inductive RetentionWrite where
  | day (value : Nat)
  | hold (branch start : Nat)
  | unhold (branch : Nat)
  | freeze
  | unfreeze
  deriving DecidableEq, Repr

/-- The four counters of Retention Control (R142). -/
structure RtnCounters where
  writes : Nat
  scans : Nat
  expired : Nat
  custodyRefusals : Nat
  deriving DecidableEq, Repr

/-- Retention Control. `reportOwed` is set by a write that completes while RST# is asserted (R128). -/
structure Rtn where
  memory : RetentionMemory
  inFlight : Option RetentionWrite
  scanOwed : Bool
  reportOwed : Bool
  counters : RtnCounters
  deriving DecidableEq, Repr

/-! ## The Reclaim Engine (chapter 8) -/

/-- A candidate: a segment with its key (R143, R144). -/
structure Candidate where
  segment : Nat
  key : Option Nat
  deriving DecidableEq, Repr

/-- An outstanding condemn (R143). -/
structure Condemn where
  segment : Nat
  reserved : Bool
  deriving DecidableEq, Repr

/-- The five counters of the Reclaim Engine (R154). -/
structure RclCounters where
  made : Nat
  refused : Nat
  creditsSpent : Nat
  erasesOk : Nat
  erasesFailed : Nat
  deriving DecidableEq, Repr

/-- The Reclaim Engine (R143). -/
structure Rcl where
  candidates : List Candidate
  outstanding : Vector (Option Condemn) 4
  eraseFlags : Vector Bool 4
  creditsHeld : Nat
  creditsReserved : Nat
  counters : RclCounters
  deriving DecidableEq, Repr

/-! ## The Settings Unit (chapters 9 and 12) -/

/-- The modes (R190). -/
inductive Mode where
  | standby
  | rebuilding
  | operating
  | stopping
  deriving DecidableEq, Repr

/-- The rebuild result (R167). -/
inductive RebuildResult where
  | notRun
  | complete
  | overCapacity
  | inProgress
  deriving DecidableEq, Repr

/-- The twelve rebuild counters (R167). -/
structure RebuildCounters where
  slabsValid : Nat
  slabsTorn : Nat
  slabsBlank : Nat
  segmentsClosed : Nat
  segmentsFree : Nat
  segmentsQueued : Nat
  leftOut : Nat
  headsFound : Nat
  headsExpired : Nat
  headsSuperseded : Nat
  recipesLive : Nat
  recipesDamaged : Nat
  deriving DecidableEq, Repr

/-- The slabs of one segment classified so far (R159). -/
structure Tally where
  valid : Nat
  torn : Nat
  blank : Nat
  deriving DecidableEq, Repr

/-- The phases of a rebuild that outlast an action: the scan (9.2) and the recount (9.4). -/
inductive RebuildPhase where
  | scan
  | recount
  deriving DecidableEq, Repr

/-- The rebuild in progress (R155). `issued` counts the scan reads issued at each bank; `heads` are the
head candidates as found, with their recipe numbers; `toIssue` the block reads not yet issued, as recipe
number and block index; `blocksLeft` the block reads not yet completed. -/
structure Rebuild where
  phase : RebuildPhase
  issued : Vector Nat 4
  classified : Nat
  tallies : Assoc Tally
  highestSeq : Option Nat
  highestRecipe : Option Nat
  heads : List (Nat × Recipe)
  toIssue : List (Nat × Nat)
  blocksLeft : Nat
  deriving DecidableEq, Repr

/-- The Settings Unit. Settings 0 to 25 in staged and in-force form (R194, R195); the in-force values of
settings 0 to 19 are the profile table. `installed` is the segment count read from the strap at the
reset (R187, R195). -/
structure Cfg where
  mode : Mode
  installed : Nat
  staged : Vector Nat 26
  inForce : Vector Nat 26
  result : RebuildResult
  counters : RebuildCounters
  rebuild : Option Rebuild
  deriving DecidableEq, Repr

/-! ## The Report Unit (chapter 10) -/

/-- The notice kinds, by rank (R168). -/
inductive NoticeKind where
  | storeFault
  | storeFull
  | streamStalled
  | streamDone
  | collision
  | storeLow
  | streamSpace
  | rebuildDone
  | releasesIdle
  | holdWritten
  | linkError
  deriving DecidableEq, Repr

/-- A notice: a kind and a subject. The subject of a device kind is `none` (R168). -/
structure Notice where
  kind : NoticeKind
  slot : Option (Fin 64)
  deriving DecidableEq, Repr

/-- What a slot latch captures, with the mode at the capture (R177). -/
structure SlotCapture where
  mode : Mode
  state : SlotState
  phase : Option Phase
  outcome : Option StreamOutcome
  closeReason : Option CloseReason
  item : Option Item
  records : Nat
  freeSpace : Nat
  counters : StreamCounters
  deriving DecidableEq, Repr

/-- What the device latch captures (R177): the 48 counters stand in the order of R179. -/
structure DeviceCapture where
  mode : Mode
  result : RebuildResult
  pairs : Nat
  counters : List Nat
  deriving DecidableEq, Repr

/-- The Report Unit. The notice set is kept in the order in which Take Notice chooses (R173); bit r - 1
of the mask is the enable of the kind of rank r (11.6). -/
structure Rpu where
  notices : List Notice
  mask : BitVec 11
  slotLatches : Vector (Option SlotCapture) 64
  deviceLatch : Option DeviceCapture
  deriving DecidableEq, Repr

/-! ## The Link Interface (chapter 11) -/

/-- A frame in the transmit queue. `immediate` marks the reply that LIF waits for before it takes the next
request, `reset` the reply to a Reset (R183, R188). The pair count of an attention frame is fixed at the
end of the action that issues it (R171) and is `none` until then. -/
inductive TxFrame where
  | reply (immediate reset : Bool) (tag : BitVec 16) (payload : List Byte)
  | attention (pairs : Option Nat)
  deriving DecidableEq, Repr

/-- The frame on the wire: its bytes, and whether it is the reply to a Reset. -/
structure OnWire where
  bytes : List Byte
  reset : Bool
  deriving DecidableEq, Repr

/-- What a held read slot answers: a Read Recipe with its recipe, first record and clamped count, or a
Read Chunk (R185). -/
inductive ReadRequest where
  | recipe (number first count : Nat)
  | chunk
  deriving DecidableEq, Repr

/-- A held read slot (R185). -/
structure ReadSlot where
  tag : BitVec 16
  request : ReadRequest
  deriving DecidableEq, Repr

/-- The Link Interface. `awaiting`: an immediate reply has not begun to be sent (R183). `resetTaken`: a
Reset has been taken and LIF accepts no frame (R188). `held`: the frames that the link holds by its own
pacing, oldest first (R183). `wire`: the frame whose sending began last. -/
structure Lif where
  reads : Vector (Option ReadSlot) 16
  tx : List TxFrame
  wire : Option OnWire
  awaiting : Bool
  resetTaken : Bool
  held : List Instr
  linkErrors : Nat
  deriving DecidableEq, Repr

/-! ## Lines, store and the whole -/

/-- The store module strap (00_scope, "External lines"). -/
inductive Strap where
  | s4096
  | s8192
  | s16384
  deriving DecidableEq, Repr

/-- The installed segment count that a strap gives (R60, R187). -/
def Strap.count : Strap → Nat
  | .s4096 => 4096
  | .s8192 => 8192
  | .s16384 => 16384

/-- The input lines: RST# asserted, supply stable, CUSTODY asserted, and the strap (11.7). -/
structure Lines where
  rst : Bool
  supply : Bool
  custody : Bool
  strap : Strap
  deriving DecidableEq, Repr

/-- The state of the part, the store behind it and the queue of commands. `store` holds the bytes of the
segment store that differ from FFh, by address (segment × 32 + slab) × 262,144 + offset; `draws` counts
the free values taken (log 2); `pending` is the queue of waiting commands, first in, first out. -/
structure State where
  slots : Vector Slot 64
  dge : Dge
  dix : Dix
  plu : Plu
  stc : Stc
  rcu : Rcu
  rtn : Rtn
  rcl : Rcl
  cfg : Cfg
  rpu : Rpu
  lif : Lif
  lines : Lines
  store : List Host.Cell
  draws : Nat
  pending : List Instr
  deriving DecidableEq, Repr

/-! ## Reset values -/

/-- The default of every setting (R194, R196), by the installed segment count. -/
def defaultSettings (installed : Nat) : Vector Nat 26 :=
  #v[2048, 8192, 65536, 16384, 4096,
     4096, 16384, 65536, 32768, 8192,
     1024, 4096, 32768, 8192, 2048,
     8192, 32768, 65536, 65536, 16384,
     0, 1, 64, 4, installed, 0]

/-- The Digest Engine after any reset (R11). -/
def resetDge : Dge := ⟨none, 63⟩

/-- The Dedup Index after any reset (R41, R43, R56, R58). -/
def resetDix : Dix := ⟨[], [], Vector.replicate 64 none, 0, ⟨0, 0, 0, 0, 0, 0, 0, 0⟩⟩

/-- The Placement Unit after any reset (R83). -/
def resetPlu : Plu := ⟨Vector.replicate 2 none, none, [], [], [], none⟩

/-- The Store Controller after any reset (R84, R97). -/
def resetStc : Stc := ⟨Vector.replicate 4 idleBank, none⟩

/-- The Recipe Unit after any reset (R103, R106, R107, R111, R116, R118). -/
def resetRcu : Rcu := ⟨Vector.replicate 64 ⟨[], 0⟩, [], none, [], none, ⟨0, 0, 0, 0, 0, 0⟩⟩

/-- The Reclaim Engine after any reset (R143, R154). -/
def resetRcl : Rcl :=
  ⟨[], Vector.replicate 4 none, Vector.replicate 4 false, 0, 0, ⟨0, 0, 0, 0, 0⟩⟩

/-- The rebuild counters after any reset and at Start (R167). -/
def zeroRebuildCounters : RebuildCounters := ⟨0, 0, 0, 0, 0, 0, 0, 0, 0, 0, 0, 0⟩

/-- The Settings Unit after any reset, by the count the strap then gives (R167, R190, R195). -/
def resetCfg (installed : Nat) : Cfg :=
  ⟨.standby, installed, defaultSettings installed, defaultSettings installed, .notRun,
   zeroRebuildCounters, none⟩

/-- The Report Unit after any reset (R169, R177). -/
def resetRpu : Rpu := ⟨[], 0x7FF#11, Vector.replicate 64 none, none⟩

/-- The Link Interface after any reset (R185, R189). -/
def resetLif : Lif := ⟨Vector.replicate 16 none, [], none, false, false, [], 0⟩

/-- The retention memory of a new part (R125). -/
def factoryMemory : RetentionMemory := ⟨0, false, []⟩

/-- A new part right after power-on: every block as its reset rules give, the retention memory as it
leaves the factory (R125), the store erased. The strap at 4,096 segments, CUSTODY not asserted and the
store BLANK are DESIGN CHOICES (log 5, log 6). -/
def State.reset : State where
  slots := Vector.replicate 64 freeSlot
  dge := resetDge
  dix := resetDix
  plu := resetPlu
  stc := resetStc
  rcu := resetRcu
  rtn := ⟨factoryMemory, none, false, false, ⟨0, 0, 0, 0⟩⟩
  rcl := resetRcl
  cfg := resetCfg 4096
  rpu := resetRpu
  lif := resetLif
  lines := ⟨false, true, false, .s4096⟩
  store := []
  draws := 0
  pending := []

end Sys2Proof.Machine
end

