-- ==== Sys2Proof/Machine/Flags.lean ====
section
/-! DEFINITION. Counters that stop, the notice set with its mask and attention frame, the fault flags of a
bank, and the codes of 11.6. -/

namespace Sys2Proof.Machine

/-- A 48-bit counter raised by `k`: it stops at 2^48 - 1 (R27, R176). -/
def countBy (n k : Nat) : Nat := Nat.min (n + k) Config.counterMax

/-! ## Notices -/

/-- The rank of a kind, which is also its code (R168). -/
def NoticeKind.rank : NoticeKind → Nat
  | .storeFault => 1
  | .storeFull => 2
  | .streamStalled => 3
  | .streamDone => 4
  | .collision => 5
  | .storeLow => 6
  | .streamSpace => 7
  | .rebuildDone => 8
  | .releasesIdle => 9
  | .holdWritten => 10
  | .linkError => 11

/-- A device notice. -/
def deviceNotice (k : NoticeKind) : Notice := ⟨k, none⟩

/-- A notice about a slot. -/
def slotNotice (k : NoticeKind) (i : Fin 64) : Notice := ⟨k, some i⟩

/-- The order in which Take Notice chooses: lowest rank, then lowest slot (R173). -/
def Notice.order (n : Notice) : Nat := n.kind.rank * 64 + (n.slot.elim 0 Fin.val)

/-- A pair added to the notice set, which is kept in Take Notice's order (R169, R173). -/
def insertNotice (n : Notice) : List Notice → List Notice
  | [] => [n]
  | m :: rest => if n.order < m.order then n :: m :: rest else m :: insertNotice n rest

/-- Is a kind's enable on (R169, 11.6)? -/
def kindEnabled (mask : BitVec 11) (k : NoticeKind) : Bool := mask.getLsbD (k.rank - 1)

/-- A raise at the Report Unit (R170). The addition that makes the set non-empty issues an attention
frame, whose pair count `endAction` fixes (R171, R186). -/
def raise (n : Notice) (s : State) : State :=
  if kindEnabled s.rpu.mask n.kind && !s.rpu.notices.contains n then
    let tx := if s.rpu.notices.isEmpty then s.lif.tx ++ [.attention none] else s.lif.tx
    { s with rpu.notices := insertNotice n s.rpu.notices, lif.tx := tx }
  else s

/-- An attention frame with its pair count fixed (R171). -/
def sealFrame (pairs : Nat) : TxFrame → TxFrame
  | .attention none => .attention (some pairs)
  | t => t

/-- The end of an action: an attention frame issued in it carries the number of pairs that the set then
holds (R171). -/
def endAction (s : State) : State :=
  { s with lif.tx := s.lif.tx.map (sealFrame s.rpu.notices.length) }

/-! ## Faults of a bank -/

/-- The bit of each kind in a bank's fault flags (11.6). -/
def faultFlagsCode (f : PerKind Bool) : Nat := f.program.toNat + 2 * f.read.toNat + 4 * f.erase.toNat

/-- Set the flag of a kind. -/
def setFlag (k : FaultKind) (f : PerKind Bool) : PerKind Bool :=
  match k with
  | .program => { f with program := true }
  | .read => { f with read := true }
  | .erase => { f with erase := true }

/-- Raise the count of a kind. -/
def countFault (k : FaultKind) (f : PerKind Nat) : PerKind Nat :=
  match k with
  | .program => { f with program := countBy f.program 1 }
  | .read => { f with read := countBy f.read 1 }
  | .erase => { f with erase := countBy f.erase 1 }

/-- A completion FAIL as STC records it: flag, count and last fault (R97). -/
def recordFault (b : Fin 4) (k : FaultKind) (s : State) : State :=
  let bank := s.stc.banks[b]
  { s with stc := {
      banks := s.stc.banks.set b { bank with flags := setFlag k bank.flags, faults := countFault k bank.faults }
      lastFault := some (b, k) } }

/-! ## Codes of 11.6 -/

def SlotState.code : SlotState → Nat
  | .free => 0
  | .opened => 1
  | .draining => 2
  | .committing => 3
  | .done => 4

def phaseCode : Option Phase → Nat
  | none => 0
  | some .scanning => 1
  | some .digestWait => 2
  | some .digesting => 3
  | some .lookup => 4
  | some .verifying => 5
  | some .deferred => 6

def itemCode : Option Item → Nat
  | none => 0
  | some .chunk => 1
  | some .block => 2
  | some .head => 3

def outcomeCode : Option StreamOutcome → Nat
  | none => 0
  | some .committed => 1
  | some .aborted => 2

def closeCode : Option CloseReason → Nat
  | none => 0
  | some .ended => 1
  | some .count => 2
  | some .limit => 3
  | some .abort => 4

def Mode.code : Mode → Nat
  | .standby => 0
  | .rebuilding => 1
  | .operating => 2
  | .stopping => 3

def RebuildResult.code : RebuildResult → Nat
  | .notRun => 0
  | .complete => 1
  | .overCapacity => 2
  | .inProgress => 3

def FaultKind.code : FaultKind → Nat
  | .program => 1
  | .read => 2
  | .erase => 3

def eraseConditionCode : EraseCondition → Nat
  | .waiting => 1
  | .running => 2
  | .suspended => 3

def RecipeState.code : RecipeState → Nat
  | .opened => 0
  | .committing => 1
  | .live => 2
  | .queued => 3
  | .releasing => 4

def jobCode : Option Job → Nat
  | none => 0
  | some .release => 1
  | some .abort => 2

def retentionWriteCode : Option RetentionWrite → Nat
  | none => 0
  | some (.day _) => 1
  | some (.hold _ _) => 2
  | some (.unhold _) => 3
  | some .freeze => 4
  | some .unfreeze => 5

/-- The eleven counters of a stream in the order of R27, 6 bytes each (11.6). -/
def StreamCounters.values (c : StreamCounters) : List Nat :=
  [c.received, c.chunked, c.overrun, c.dropped, c.chunks, c.newChunks, c.dupChunks, c.newBytes,
   c.dupBytes, c.unindexed, c.collisions]

/-- Counters as they travel, in 6 bytes each (11.6). -/
def counterBytes (cs : List Nat) : List Byte := cs.flatMap (beBytes 6)

end Sys2Proof.Machine
end

