-- ==== Sys2Proof/Machine/Ops.lean ====
section
/-! DEFINITION. The named operations that every meaning shares: finite maps, the bytes of the store, slab
images, and the accessors of slots, banks, buffers and settings. -/

namespace Sys2Proof.Machine

/-- What a command answers. -/
abbrev Out := Host.Outcome State Fault Refusal

/-- An action taken whole (95_what_each_step_holds). -/
def act (s : State) : Out := .next (endAction s)

/-- An event whose cause the state does not hold (log 4). -/
def absent (m : Missing) : Out := .fault (.cannotOccur m)

/-! ## Finite maps -/

/-- What a map holds under a key. -/
def assocGet {α : Type} : Assoc α → Nat → Option α
  | [], _ => none
  | (k, v) :: rest, q => if k = q then some v else assocGet rest q

/-- A map with one key set. Keys stay in rising order. -/
def assocSet {α : Type} : Assoc α → Nat → α → Assoc α
  | [], q, w => [(q, w)]
  | (k, v) :: rest, q, w =>
    if q < k then (q, w) :: (k, v) :: rest
    else if q = k then (q, w) :: rest
    else (k, v) :: assocSet rest q w

/-- A map with one key removed. -/
def assocErase {α : Type} (m : Assoc α) (q : Nat) : Assoc α := m.filter (fun e => e.1 != q)

/-- The canonical form of a map: keys strictly rising. -/
abbrev AssocWf {α : Type} (m : Assoc α) : Prop := (m.map Prod.fst).Pairwise (· < ·)

/-! ## The bytes of the store -/

/-- What a byte reads as that nothing has programmed since its segment's last erase (R87, R94). -/
abbrev blankByte : Byte := 0xFF#8

/-- The canonical form of the store: addresses strictly rising, and no byte listed that reads as blank. -/
abbrev Memory.wf (m : List Host.Cell) : Prop :=
  (m.map Prod.fst).Pairwise (· < ·) ∧ ∀ c ∈ m, c.2 ≠ blankByte

/-- One byte of the store. -/
def readByte : List Host.Cell → Nat → Byte
  | [], _ => blankByte
  | (k, v) :: rest, a => if k = a then v else readByte rest a

/-- A run of bytes of the store. -/
def readRun (m : List Host.Cell) (base n : Nat) : List Byte :=
  (List.range n).map (fun i => readByte m (base + i))

/-- The cells of a run that are to be listed. -/
def runCells : Nat → List Byte → List Host.Cell
  | _, [] => []
  | a, b :: rest => if b = blankByte then runCells (a + 1) rest else (a, b) :: runCells (a + 1) rest

/-- A run of bytes written to the store. -/
def writeRun (m : List Host.Cell) (base : Nat) (bs : List Byte) : List Host.Cell :=
  m.filter (fun c => c.1 < base) ++ runCells base bs ++ m.filter (fun c => base + bs.length ≤ c.1)

/-- A run of bytes of the store made blank. -/
def eraseRun (m : List Host.Cell) (base n : Nat) : List Host.Cell :=
  m.filter (fun c => c.1 < base || base + n ≤ c.1)

/-- The address of a physical slab's first byte (R60). -/
def slabBase (p : Place) : Nat := (p.segment * Config.slabsPerSegment + p.slab) * Config.slabBytes

/-- A run of a physical slab. -/
def readSlabRun (m : List Host.Cell) (p : Place) (off n : Nat) : List Byte :=
  readRun m (slabBase p + off) n

/-- A physical slab whole. -/
def readSlab (m : List Host.Cell) (p : Place) : List Byte := readSlabRun m p 0 Config.slabBytes

/-- A slab image written to a physical slab (R86). -/
def writeSlab (m : List Host.Cell) (p : Place) (image : List Byte) : List Host.Cell :=
  writeRun m (slabBase p) (image.take Config.slabBytes)

/-- A segment made BLANK (R96). -/
def eraseSegment (m : List Host.Cell) (segment : Nat) : List Host.Cell :=
  eraseRun m (slabBase ⟨segment, 0⟩) (Config.slabsPerSegment * Config.slabBytes)

/-! ## Slab images (R61) -/

/-- Bytes of 00h. -/
def zeros (n : Nat) : List Byte := List.replicate n 0#8

/-- A trailer entry's 64 bytes. -/
def trailerEntryBytes (e : TrailerEntry) : List Byte :=
  let place := beBytes 4 e.offset ++ beBytes 4 e.length
  match e.kind with
  | .chunk d => [0x01#8, 0#8, 0#8, 0#8] ++ place ++ digestBytes d ++ zeros 20
  | .recipeBlock r i => [0x02#8, 0#8, 0#8, 0#8] ++ place ++ beBytes 4 r ++ beBytes 2 i ++ zeros 46
  | .recipeHead r => [0x03#8, 0#8, 0#8, 0#8] ++ place ++ beBytes 4 r ++ beBytes 2 0 ++ zeros 46

/-- The trailer header's 64 bytes, with the four bytes of its check. -/
def trailerHeaderBytes (seq segment slab count : Nat) (check : List Byte) : List Byte :=
  beBytes 4 seq ++ beBytes 2 segment ++ beBytes 1 slab ++ zeros 1 ++ beBytes 2 count ++ zeros 2 ++
    check ++ zeros 48

/-- The 262,144 bytes of a fill buffer. A header not yet written is 00h (R82). -/
def bufferImage (b : FillBuffer) : List Byte :=
  let gap := Config.slabBytes - Config.trailerUnit - b.data.length - Config.trailerUnit * b.entries.length
  let body := b.data ++ zeros gap ++ b.entries.reverse.flatMap trailerEntryBytes
  match b.header with
  | none => body ++ zeros Config.trailerUnit
  | some (segment, slab) =>
    let header := trailerHeaderBytes b.seq segment.toNat slab.toNat b.entries.length
    body ++ header (checkBytes (body ++ header (zeros 4)))

/-- Does an object of `n` bytes fit the slab a buffer is assembling (R62)? -/
def fits (b : FillBuffer) (n : Nat) : Bool :=
  b.data.length + n + Config.trailerUnit * (b.entries.length + 1) + Config.trailerUnit ≤ Config.slabBytes

/-- The three conditions of a physical slab (R94). -/
inductive SlabCondition where
  | blank
  | valid
  | torn
  deriving DecidableEq, Repr

/-- The condition that a slab's bytes have at a place (R94). -/
def slabCondition (p : Place) (bs : List Byte) : SlabCondition :=
  let header := bs.drop (Config.slabBytes - Config.trailerUnit)
  let unchecked := bs.take (Config.slabBytes - Config.trailerUnit) ++ header.take 12 ++ zeros 4 ++ header.drop 16
  let seq := field header 0 4
  let count := field header 8 2
  if bs.all (fun b => b == blankByte) then .blank
  else if (header.drop 12).take 4 == checkBytes unchecked && (decide (16 ≤ seq) && decide (seq ≤ 4294967294)) &&
      (field header 4 2 == p.segment && field header 6 1 == p.slab) &&
      (decide (1 ≤ count) && decide (count ≤ 4032)) then .valid
  else .torn

/-! ## Free bytes of the store (log 2) -/

/-- A slab's worth of bytes that nothing constrains. -/
def freeSlabBytes (draw : Nat) : List Byte := (List.range Config.slabBytes).map (Config.freeByte draw)

/-- An image with its trailer header area overwritten with 00h (R95). -/
def clearHeader (bs : List Byte) : List Byte :=
  bs.take (Config.slabBytes - Config.trailerUnit) ++ zeros Config.trailerUnit

/-- What a failed program leaves: any bytes with the trailer header area overwritten with 00h, or any bytes
that are not VALID (R95, log 2). -/
def afterFailedProgram (p : Place) (draw : Nat) : List Byte :=
  let raw := freeSlabBytes draw
  if Config.headerCleared draw ∨ slabCondition p raw = .valid then clearHeader raw else raw

/-- What an interrupted program leaves: any bytes that are not VALID, or the full image (R100). -/
def afterCutProgram (p : Place) (image : List Byte) (draw : Nat) : List Byte :=
  let raw := freeSlabBytes draw
  if slabCondition p raw = .valid then image else raw

/-- What an erase that did not finish leaves in one slab: any bytes that are not VALID, or what the slab
held (R96, R100). (DEDUCED, log 14) -/
def afterCutErase (m : List Host.Cell) (p : Place) (draw : Nat) : List Byte :=
  let raw := freeSlabBytes draw
  if slabCondition p raw = .valid then readSlab m p else raw

/-- A segment whose erase did not finish: each of its 32 slabs by its own draw (R96, R100). -/
def cutErase (m : List Host.Cell) (segment draw : Nat) : List Host.Cell :=
  (List.range Config.slabsPerSegment).foldl
    (fun acc i => writeSlab acc ⟨segment, i⟩ (afterCutErase m ⟨segment, i⟩ (draw + i))) m

/-! ## Accessors -/

/-- The slot of a number. -/
def State.slot (s : State) (i : Fin 64) : Slot := s.slots[i]

/-- A slot replaced. -/
def State.withSlot (s : State) (i : Fin 64) (x : Slot) : State := { s with slots := s.slots.set i x }

/-- The bank of a number. -/
def State.bank (s : State) (b : Fin 4) : Bank := s.stc.banks[b]

/-- A bank replaced. -/
def State.withBank (s : State) (b : Fin 4) (k : Bank) : State :=
  { s with stc.banks := s.stc.banks.set b k }

/-- A slot's record buffer. -/
def State.recordBuffer (s : State) (i : Fin 64) : RecordBuffer := s.rcu.buffers[i]

/-- A slot's record buffer replaced. -/
def State.withRecordBuffer (s : State) (i : Fin 64) (r : RecordBuffer) : State :=
  { s with rcu.buffers := s.rcu.buffers.set i r }

/-- A catalog entry set. -/
def State.withRecipe (s : State) (number : Nat) (r : Recipe) : State :=
  { s with rcu.catalog := assocSet s.rcu.catalog number r }

/-- The in-force value of a setting (R195). -/
def State.setting (s : State) (n : Fin 26) : Nat := s.cfg.inForce[n]

/-- The slots, in ascending order. -/
def allSlots : List (Fin 64) := List.finRange 64

/-- Segment n lies on bank n mod 4 (R60). -/
def bankOf (segment : Nat) : Fin 4 := ⟨segment % 4, Nat.mod_lt _ (by decide)⟩

/-- The part is held in reset: RST# is asserted or the supply is not stable (R189). -/
def State.inReset (s : State) : Bool := s.lines.rst || !s.lines.supply

/-- The free intake space (1.4). -/
def intakeFree (x : Slot) : Nat := Config.intakeBytes - x.intake.length

/-! ## Fill buffers and the slab map -/

/-- The first fill buffer that a test accepts. -/
def Plu.findBuffer (p : Plu) (test : Option FillBuffer → Bool) : Option (Fin 2) :=
  if test p.buffers[0] then some 0 else if test p.buffers[1] then some 1 else none

/-- The buffer under the cursor (R66). -/
def Plu.fillingIndex (p : Plu) : Option (Fin 2) := p.findBuffer (·.any (·.state == .filling))

/-- A FREE buffer. -/
def Plu.freeIndex (p : Plu) : Option (Fin 2) := p.findBuffer (·.isNone)

/-- The buffer that holds a sequence. -/
def Plu.indexOf (p : Plu) (seq : Nat) : Option (Fin 2) := p.findBuffer (·.any (·.seq == seq))

/-- The image that a fill buffer holds of a sequence. -/
def Plu.bufferOf (p : Plu) (seq : Nat) : Option FillBuffer := (p.indexOf seq).bind (fun i => p.buffers[i])

/-- Change the buffer that holds a sequence. -/
def Plu.updateBuffer (p : Plu) (seq : Nat) (f : FillBuffer → FillBuffer) : Plu :=
  { p with buffers := p.buffers.map (fun b => b.map (fun x => if x.seq = seq then f x else x)) }

/-- Free the buffer that holds a sequence (R65, R81). -/
def Plu.freeBuffer (p : Plu) (seq : Nat) : Plu :=
  { p with buffers := p.buffers.map (fun b => b.filter (fun x => x.seq != seq)) }

/-- The sequences held in fill buffers. -/
def Plu.buffered (p : Plu) : List Nat := p.buffers.toList.filterMap (·.map (·.seq))

/-- Is a sequence in the slab map? -/
def Plu.mapped (p : Plu) (seq : Nat) : Bool := (assocGet p.map seq).isSome

/-- Is a sequence in a fill buffer, so FILLING, QUEUED or PROGRAMMING (R42, R70)? -/
def Plu.pending (p : Plu) (seq : Nat) : Bool := (p.indexOf seq).isSome

/-- The physical place of a sequence. -/
def Plu.placeOf (p : Plu) (seq : Nat) : Option Place := (assocGet p.map seq).bind (·.place)

/-- The slab map entries whose place lies in a segment. -/
def Plu.entriesIn (p : Plu) (segment : Nat) : Assoc SlabEntry :=
  p.map.filter (fun e => e.2.place.any (·.segment == segment))

/-- The FREE segments, in ascending order (R74). -/
def Plu.freeSegments (p : Plu) : List Nat := (p.segments.filter (fun e => e.2 == .free)).map Prod.fst

/-- The OPEN segment, with how many of its slabs have been given out (R68, R73). -/
def Plu.openSegment (p : Plu) : Option (Nat × Nat) :=
  p.segments.findSome? (fun e => match e.2 with
    | .opened g => some (e.1, g)
    | _ => none)

/-- The segment that holds the sequence floor's slab (R77). -/
def Plu.floorSegment (p : Plu) : Option Nat := (p.floor.bind p.placeOf).map (·.segment)

/-- The free segment count: FREE segments less the retarget reserve, and 0 below it (R74). -/
def State.freeSegmentCount (s : State) : Nat := s.plu.freeSegments.length - s.setting 23

/-- One reference more; a count at 2^32 - 1 is pinned (R71, R72). -/
def countUp (n : Nat) : Nat := if n < Config.countMax then n + 1 else n

/-- One reference less: never below 0, and pinned at 2^32 - 1 (R72). -/
def countDown (n : Nat) : Nat := if n < Config.countMax then n - 1 else n

/-- Add a reference to a sequence's count, where the map holds it. -/
def Plu.addReference (p : Plu) (seq : Nat) : Plu :=
  match assocGet p.map seq with
  | none => p
  | some e => { p with map := assocSet p.map seq { e with count := countUp e.count } }

/-- The lowest sequence that is not yet programmed: the lowest in a buffer, or the next one (R76). -/
def Plu.firstUndurable (p : Plu) : Option Nat :=
  match p.buffered.min? with
  | some q => some q
  | none => p.nextSeq

/-- The durable mark (R76). -/
def Plu.durableMark (p : Plu) : Option Nat := p.firstUndurable.map (· - 1)

/-- Insert a sequence into the retarget wait list, which is in ascending order (R80). -/
def insertSeq (q : Nat) : List Nat → List Nat
  | [] => [q]
  | x :: rest => if q < x then q :: x :: rest else if q = x then x :: rest else x :: insertSeq q rest

end Sys2Proof.Machine
end

