-- ==== Sys2Proof/Machine/Store.lean ====
section
/-! DEFINITION. The four bank machines: arrivals, choices, suspended erases, and reads of slabs (chapter 5,
R65, R73, R82). -/

namespace Sys2Proof.Machine

/-- A bank starts the program of a slab: buffer and map entry become PROGRAMMING, and the trailer header
is written for the place (R65, R86). (DEDUCED, log 23) -/
def startProgram (b : Fin 4) (seq : Nat) (s : State) : State :=
  match s.plu.placeOf seq with
  | none => s
  | some p =>
    let k := s.bank b
    let s := s.withBank b { k with running := some (.program seq p) }
    { s with plu := s.plu.updateBuffer seq (fun x =>
        { x with state := .programming, header := some (BitVec.ofNat 16 p.segment, BitVec.ofNat 8 p.slab) }) }

/-- The choice of a bank that runs nothing: its oldest read, then its oldest program, then its held erase,
which starts or resumes (R90, R92). -/
def chooseNext (b : Fin 4) (s : State) : State :=
  let k := s.bank b
  match k.readQueue with
  | j :: rest => s.withBank b { k with running := some (.read j), readQueue := rest }
  | [] =>
    match k.programQueue with
    | q :: rest => startProgram b q (s.withBank b { k with programQueue := rest })
    | [] =>
      match k.held with
      | none => s
      | some e => s.withBank b { k with running := some (.erase e.segment), held := some { e with condition := .running } }

/-- A read or a program arrives at a bank (R90, R91, R92): it suspends a RUNNING erase whose suspend count
is below 15, waits behind a running operation, or starts at once. -/
def bankArrival (b : Fin 4) (join : Bank → Bank) (s : State) : State :=
  let k := s.bank b
  match k.held with
  | some e =>
    if e.condition = .running then
      if e.suspends < Config.suspendLimit then
        chooseNext b (s.withBank b (join { k with running := none, held := some { e with condition := .suspended, suspends := e.suspends + 1 } }))
      else s.withBank b (join k)
    else if k.running.isSome then s.withBank b (join k)
    else chooseNext b (s.withBank b (join k))
  | none =>
    if k.running.isSome then s.withBank b (join k)
    else chooseNext b (s.withBank b (join k))

/-- A read arrives at the bank of its segment (R85). -/
def queueRead (j : ReadJob) (s : State) : State :=
  bankArrival (bankOf j.place.segment) (fun k => { k with readQueue := k.readQueue ++ [j] }) s

/-- A program arrives at the bank of its slab's segment (R64, R85). -/
def queueProgram (seq : Nat) (s : State) : State :=
  match s.plu.placeOf seq with
  | none => s
  | some p => bankArrival (bankOf p.segment) (fun k => { k with programQueue := k.programQueue ++ [seq] }) s

/-- The end of a completion's action at its bank: the operation that completed is over, and the bank
chooses. The consequences of the completion come before the choice (R89, R93). (DEDUCED, log 7) -/
def finishBank (b : Fin 4) (s : State) : State :=
  chooseNext b (s.withBank b { s.bank b with running := none })

/-- Is a bank idle in the sense of R101: nothing running, both queues empty, no erase held? -/
def bankIdle (k : Bank) : Bool :=
  k.running.isNone && k.readQueue.isEmpty && k.programQueue.isEmpty && k.held.isNone

/-- Are all four banks idle? -/
def State.banksIdle (s : State) : Bool := s.stc.banks.all bankIdle

/-- The lowest-numbered CONDEMNED segment of a bank (R73). -/
def Plu.nextCondemned (p : Plu) (b : Fin 4) : Option Nat :=
  (p.segments.find? (fun e => e.2 == .condemned && bankOf e.1 == b)).map Prod.fst

/-- PLU hands the erase of a bank's lowest-numbered CONDEMNED segment to a bank that holds none, in
OPERATING and REBUILDING (R73, R88). -/
def giveErase (b : Fin 4) (s : State) : State :=
  if s.cfg.mode = .operating ∨ s.cfg.mode = .rebuilding then
    match (s.bank b).held, s.plu.nextCondemned b with
    | none, some g =>
      let s := { s with plu.segments := assocSet s.plu.segments g .erasing }
      let s := s.withBank b { s.bank b with held := some ⟨g, .waiting, 0⟩ }
      if (s.bank b).running.isNone then chooseNext b s else s
    | _, _ => s
  else s

/-- How PLU answers a slab read (R82). -/
inductive SlabAnswer where
  /-- The sequence is not in the slab map. -/
  | absent
  /-- The bytes, copied from the fill buffer in the same action. -/
  | copied (bytes : List Byte)
  /-- A store read has been appended to the bank's read queue. -/
  | queued

/-- A slab read taken by PLU (R82). -/
def slabRead (who : Requester) (seq off len : Nat) (s : State) : SlabAnswer × State :=
  if s.plu.mapped seq then
    match s.plu.bufferOf seq with
    | some b => (.copied (((bufferImage b).drop off).take len), s)
    | none =>
      match s.plu.placeOf seq with
      | some p => (.queued, queueRead ⟨who, p, off, len⟩ s)
      | none => (.absent, s)
  else (.absent, s)

/-- A bank's state as Store Status reports it (R98). -/
def bankStateCode (k : Bank) : Nat :=
  if k.held.any (·.condition == .suspended) then 4
  else match k.running with
    | none => 0
    | some (.program _ _) => 1
    | some (.read _) => 2
    | some (.erase _) => 3

end Sys2Proof.Machine
end

