-- ==== Sys2Proof/Machine/Reclaim.lean ====
section
/-! DEFINITION. The Reclaim Engine: candidates, passes, condemns (chapter 8), and the give-back of a
reference, which may make a candidate (R72, R144). -/

namespace Sys2Proof.Machine

/-! ## Candidates -/

/-- Every slab of the segment has count 0, none is in a fill buffer, and the segment does not hold the
sequence floor (R144, R149). -/
def Plu.segmentEmpty (p : Plu) (segment : Nat) : Bool :=
  (p.entriesIn segment).all (fun e => e.2.count == 0 && !p.pending e.1) &&
    p.floorSegment != some segment

/-- PLU's judgement of a segment, less the mode (R144). -/
def Plu.reclaimable (p : Plu) (segment : Nat) : Bool :=
  assocGet p.segments segment == some .closed && p.segmentEmpty segment

/-- The key of a candidate: the lowest sequence among the segment's map entries, or none (R144). -/
def Plu.candidateKey (p : Plu) (segment : Nat) : Option Nat := ((p.entriesIn segment).map Prod.fst).min?

/-- Does one candidate stand ahead of another (R145)? -/
def Candidate.before (x y : Candidate) : Bool :=
  match x.key, y.key with
  | none, none => x.segment < y.segment
  | none, some _ => true
  | some _, none => false
  | some a, some b => a < b

/-- A candidate put in its place in the list (R145). -/
def insertCandidate (c : Candidate) : List Candidate → List Candidate
  | [] => [c]
  | x :: rest => if c.before x then c :: x :: rest else x :: insertCandidate c rest

/-- Is a segment listed, or its condemn outstanding (R145)? -/
def Rcl.knows (r : Rcl) (segment : Nat) : Bool :=
  r.candidates.any (·.segment == segment) || r.outstanding.any (·.any (·.segment == segment))

/-! ## Passes -/

/-- May RCL issue the condemn of a candidate (R146, R148)? -/
def Rcl.mayIssue (r : Rcl) (automatic : Bool) (c : Candidate) : Bool :=
  r.outstanding[bankOf c.segment].isNone && !r.eraseFlags[bankOf c.segment] &&
    (automatic || r.creditsReserved < r.creditsHeld)

/-- RCL issues the condemn of a candidate, reserving a credit unless setting 21 stands at 1 (R146, R148). -/
def Rcl.issue (r : Rcl) (automatic : Bool) (c : Candidate) : Rcl :=
  { r with
    candidates := r.candidates.filter (fun x => x.segment != c.segment)
    outstanding := r.outstanding.set (bankOf c.segment) (some ⟨c.segment, !automatic⟩)
    creditsReserved := if automatic then r.creditsReserved else r.creditsReserved + 1 }

/-- A pass over the candidates in list order (R148). -/
def Rcl.passOver (automatic : Bool) : List Candidate → Rcl → Rcl
  | [], r => r
  | c :: rest, r => Rcl.passOver automatic rest (if r.mayIssue automatic c then r.issue automatic c else r)

/-- Does setting 21, automatic reclaim, stand at 1? -/
def State.automaticReclaim (s : State) : Bool := s.setting 21 == 1

/-- A reclaim pass (R148). RCL runs in OPERATING (R153). -/
def reclaimPass (s : State) : State :=
  if s.cfg.mode = .operating then
    { s with rcl := s.rcl.passOver s.automaticReclaim s.rcl.candidates }
  else s

/-- PLU judges a segment and passes a candidate to RCL, which lists it; no pass (R144, R145). The flag
says whether it joined the list. -/
def offerCandidate (segment : Nat) (s : State) : Bool × State :=
  if s.cfg.mode = .operating ∧ s.plu.reclaimable segment ∧ !s.rcl.knows segment then
    (true, { s with rcl.candidates := insertCandidate ⟨segment, s.plu.candidateKey segment⟩ s.rcl.candidates })
  else (false, s)

/-- PLU judges a segment, and a candidate that joins the list makes RCL run a pass (R144, R145, R148). -/
def judgeSegment (segment : Nat) (s : State) : State :=
  let r := offerCandidate segment s
  if r.1 then reclaimPass r.2 else r.2

/-- A give-back at PLU (R72). A count that it lowers to 0 has the slab's segment judged (R144). -/
def giveBack (seq : Nat) (s : State) : State :=
  match assocGet s.plu.map seq with
  | none => s
  | some e =>
    let t := { s with plu.map := assocSet s.plu.map seq { e with count := countDown e.count } }
    if e.count = 1 then
      match e.place with
      | some p => judgeSegment p.segment t
      | none => t
    else t

/-- Several give-backs of one action, one after another in the order given. The manual gives none: the model
takes a block's records in record order, and a recipe's objects as its blocks in block index order and then
its head (R110, R113, R115). (DESIGN CHOICE, log 31) -/
def giveBackAll (seqs : List Nat) (s : State) : State := seqs.foldl (fun t q => giveBack q t) s

/-! ## The bank erase flags -/

/-- The bank erase flag of a bank (R143). -/
def State.withEraseFlag (s : State) (b : Fin 4) (set : Bool) : State :=
  { s with rcl.eraseFlags := s.rcl.eraseFlags.set b set }

/-! ## Condemns -/

/-- RCL receives the result of a bank's condemn: the credit reserved is spent or returned, the bank erase
flag set when the condemn was made, and a pass run (R150, R154). -/
def condemnResult (b : Fin 4) (c : Condemn) (made : Bool) (s : State) : State :=
  let r := s.rcl
  let back := if c.reserved then 1 else 0
  let n := r.counters
  let r := { r with
    outstanding := r.outstanding.set b none
    creditsReserved := r.creditsReserved - back }
  let r := if made then
      { r with
        creditsHeld := r.creditsHeld - back
        eraseFlags := r.eraseFlags.set b true
        counters := { n with made := countBy n.made 1, creditsSpent := countBy n.creditsSpent back } }
    else { r with counters := { n with refused := countBy n.refused 1 } }
  reclaimPass { s with rcl := r }

/-- Does PLU make the condemn of a segment (R149)? -/
def condemnAllowed (s : State) (segment : Nat) : Bool :=
  s.cfg.mode == .operating && s.plu.reclaimable segment

/-- PLU makes the condemn of a segment: its slab map entries are removed, and it becomes CONDEMNED (R149). -/
def makeCondemn (segment : Nat) (s : State) : State :=
  { s with
    plu.map := s.plu.map.filter (fun e => !e.2.place.any (·.segment == segment))
    plu.segments := assocSet s.plu.segments segment .condemned }

/-- CONDEMN_TAKEN (R149, R150, R151): PLU takes the condemn request outstanding for a bank, makes or
refuses it, gives the erase to a bank that holds none, and returns the result to RCL. -/
def execCondemnTaken (b : Fin 4) (s : State) : Out :=
  match s.rcl.outstanding[b] with
  | none => absent .condemn
  | some c =>
    if condemnAllowed s c.segment then
      act (condemnResult b c true (giveErase (bankOf c.segment) (makeCondemn c.segment s)))
    else act (condemnResult b c false s)

/-- PLU reports an erase completion to RCL: the completion is counted, and when the bank holds no erase and
has none waiting its flag is cleared and a pass run (R152, R154). -/
def eraseReport (b : Fin 4) (result : OpResult) (s : State) : State :=
  let n := s.rcl.counters
  let n := match result with
    | .ok => { n with erasesOk := countBy n.erasesOk 1 }
    | .fail => { n with erasesFailed := countBy n.erasesFailed 1 }
  let s := { s with rcl.counters := n }
  if (s.bank b).held.isNone && (s.plu.nextCondemned b).isNone then
    reclaimPass (s.withEraseFlag b false)
  else s

/-- The entry into OPERATING at RCL: the bank erase flags are set to match the banks, every CLOSED segment
is judged, and one pass is run (R153). -/
def reclaimOnEntry (s : State) : State :=
  let flags := Vector.ofFn (fun b : Fin 4 => (s.bank b).held.isSome || (s.plu.nextCondemned b).isSome)
  let s := { s with rcl.eraseFlags := flags }
  let closed := (s.plu.segments.filter (fun e => e.2 == .closed)).map Prod.fst
  reclaimPass (closed.foldl (fun t g => (offerCandidate g t).2) s)

end Sys2Proof.Machine
end

