-- ==== Sys2Proof/Machine/Placement.lean ====
section
/-! DEFINITION. The Placement Unit: the cursor, flushes, placements, retargets, the wait list (chapter 4). -/

namespace Sys2Proof.Machine

/-! ## A slab leaves FILLING -/

/-- The slab under the cursor (R66). -/
def Plu.fillingBuffer (p : Plu) : Option FillBuffer := p.fillingIndex.bind (fun i => p.buffers[i])

/-- The place fields that a trailer header gets when its slab leaves FILLING (R64). A slab with no place
has none to give. (log 3) -/
def headerPlace (p : Plu) (seq : Nat) : BitVec 16 × BitVec 8 :=
  match p.placeOf seq with
  | some q => (BitVec.ofNat 16 q.segment, BitVec.ofNat 8 q.slab)
  | none => Config.unassignedPlace seq

/-- The filling slab, if there is one, leaves FILLING: its header is written, and its program is handed to
the bank, or the slab joins the retarget wait list when it has no place (R64, R69, R80). -/
def leaveFilling (s : State) : State :=
  match s.plu.fillingBuffer with
  | none => s
  | some b =>
    let h := headerPlace s.plu b.seq
    let t := { s with plu := s.plu.updateBuffer b.seq (fun x => { x with state := .queued, header := some h }) }
    if (s.plu.placeOf b.seq).isSome then queueProgram b.seq t
    else { t with plu.waitList := insertSeq b.seq t.plu.waitList }

/-! ## The advance -/

/-- STORE_LOW when a segment has left FREE and the free segment count is below setting 22 (R75). -/
def noteLeftFree (s : State) : State :=
  if s.freeSegmentCount < s.setting 22 then raise (deviceNotice .storeLow) s else s

/-- The segment an advance may open: the lowest-numbered FREE one, while the free segment count is at least
1 and no slab waits for a retarget (R68, R74, R80). -/
def segmentToOpen (s : State) : Option Nat :=
  if 1 ≤ s.freeSegmentCount ∧ s.plu.waitList = [] then s.plu.freeSegments.head? else none

/-- The physical slab of the next advance: the next of the OPEN segment, or slab 0 of a segment to be
opened (R68). -/
def nextPhysical (s : State) : Option Place :=
  match s.plu.openSegment with
  | some (g, given) =>
    if given < Config.slabsPerSegment then some ⟨g, given⟩ else (segmentToOpen s).map (⟨·, 0⟩)
  | none => (segmentToOpen s).map (⟨·, 0⟩)

/-- The advance itself, given its sequence, its place and its FREE buffer: steps 1 to 5 of R68. -/
def advance (seq : Nat) (place : Place) (i : Fin 2) (s : State) : State :=
  let before := s.plu.openSegment
  let s := leaveFilling s
  let goesOn := before.any (·.1 == place.segment)
  let segments := match before with
    | some (g, _) => if goesOn then s.plu.segments else assocSet s.plu.segments g .closed
    | none => s.plu.segments
  let s := { s with plu := { s.plu with
      segments := assocSet segments place.segment (.opened (place.slab + 1))
      map := assocSet s.plu.map seq ⟨some place, 0⟩
      buffers := s.plu.buffers.set i (some ⟨.filling, seq, [], [], none⟩)
      nextSeq := some (seq + 1) } }
  if goesOn then s
  else
    let s := noteLeftFree s
    match before with
    | some (g, _) => judgeSegment g s
    | none => s

/-- The cursor tries an advance (R68). Refused, nothing changes but the STORE_FULL that a want of a segment
raises (R75). -/
def tryAdvance (s : State) : Bool × State :=
  match s.plu.nextSeq, nextPhysical s with
  | some q, some place =>
    if q < Config.sequenceEnd then
      match s.plu.freeIndex with
      | some i => (true, advance q place i s)
      | none => (false, s)
    else (false, raise (deviceNotice .storeFull) s)
  | _, _ => (false, raise (deviceNotice .storeFull) s)

/-! ## Placements -/

/-- An object put into a filling slab: steps 1 to 6 of R67. -/
def putObject (kind : ObjectKind) (bytes : List Byte) (b : FillBuffer) (s : State) : Location × State :=
  let e : TrailerEntry := ⟨kind, b.data.length, bytes.length⟩
  let p := s.plu.updateBuffer b.seq (fun x => { x with data := x.data ++ bytes, entries := x.entries ++ [e] })
  (⟨b.seq, b.data.length⟩, { s with plu := p.addReference b.seq })

/-- A placement request that needs an advance (R67). -/
def placeAfterAdvance (kind : ObjectKind) (bytes : List Byte) (s : State) : Option Location × State :=
  match tryAdvance s with
  | (false, t) => (none, t)
  | (true, t) =>
    match t.plu.fillingBuffer with
    | some b => ((putObject kind bytes b t).1, (putObject kind bytes b t).2)
    | none => (none, t)

/-- A placement request taken whole (R67): the object goes into the filling slab when it fits, otherwise
into the slab of an advance. Refused, it answers none. -/
def placeObject (kind : ObjectKind) (bytes : List Byte) (s : State) : Option Location × State :=
  match s.plu.fillingBuffer with
  | some b =>
    if fits b bytes.length then ((putObject kind bytes b s).1, (putObject kind bytes b s).2)
    else placeAfterAdvance kind bytes s
  | none => placeAfterAdvance kind bytes s

/-! ## Retarget -/

/-- A segment given to slabs, in ascending sequence order from its slab 0: steps 4 and 5 of R78. -/
def giveSegment (segment : Nat) (seqs : List Nat) (s : State) : State :=
  let map := seqs.zipIdx.foldl (fun m e =>
    match assocGet m e.1 with
    | some x => assocSet m e.1 { x with place := some ⟨segment, e.2⟩ }
    | none => m) s.plu.map
  let opens := s.plu.openSegment.isNone
  let state := if opens then SegState.opened seqs.length else .closed
  let s := { s with plu := { s.plu with map := map, segments := assocSet s.plu.segments segment state } }
  let s := noteLeftFree s
  let filling := s.plu.fillingBuffer.map (·.seq)
  let s := (seqs.filter (fun q => filling != some q)).foldl (fun t q => queueProgram q t) s
  if opens then s else judgeSegment segment s

/-- Slabs that must move take the lowest-numbered FREE segment, or join the retarget wait list and raise
STORE_FULL (R78, R80). -/
def retarget (seqs : List Nat) (s : State) : State :=
  match s.plu.freeSegments.head? with
  | some g => giveSegment g seqs s
  | none =>
    let map := seqs.foldl (fun m q =>
      match assocGet m q with
      | some x => assocSet m q { x with place := none }
      | none => m) s.plu.map
    raise (deviceNotice .storeFull)
      { s with plu := { s.plu with map := map, waitList := seqs.foldl (fun w q => insertSeq q w) s.plu.waitList } }

/-- A segment that an erase has freed is given to the slabs on the wait list (R74, R80). -/
def serveWaitList (segment : Nat) (s : State) : State :=
  match s.plu.waitList with
  | [] => s
  | seqs => giveSegment segment seqs { s with plu.waitList := [] }

/-- The slabs that a program failure in a segment moves: the failed one, and the slab of the other buffer
where it lies in the same segment and is QUEUED or FILLING (R78). In ascending sequence order. -/
def slabsToMove (p : Plu) (seq segment : Nat) : List Nat :=
  ((p.buffers.toList.filterMap id).filter (fun b =>
    b.seq == seq || (b.state != .programming && (p.placeOf b.seq).any (·.segment == segment)))).foldl
      (fun acc b => insertSeq b.seq acc) []

/-- PLU's part of a program completion FAIL (R78, R93): the segment closes, queued programs of the slabs to
be moved are withdrawn, and the slabs are retargeted. The failed segment is judged once its slabs have moved
(R144). (DEDUCED, log 33) -/
def programFailed (b : Fin 4) (seq : Nat) (place : Place) (s : State) : State :=
  let moved := slabsToMove s.plu seq place.segment
  let s := { s with plu := { s.plu.updateBuffer seq (fun x => { x with state := .queued }) with
      segments := assocSet s.plu.segments place.segment .closed } }
  let k := s.bank b
  let s := s.withBank b { k with programQueue := k.programQueue.filter (fun q => !moved.contains q) }
  let s := judgeSegment place.segment (retarget moved s)
  raise (deviceNotice .storeFault) s

/-! ## Stopping -/

/-- The slabs still waiting for a retarget are discarded when every bank is idle (R81). -/
def discardWaitList (s : State) : State :=
  { s with plu := { s.plu with
      buffers := s.plu.buffers.map (fun b => b.filter (fun x => !s.plu.waitList.contains x.seq))
      map := s.plu.map.filter (fun e => !s.plu.waitList.contains e.1)
      waitList := [] } }

/-- PLU takes every condemn still outstanding and refuses it, because the mode is not OPERATING (R149, R150,
R153). -/
def refuseOutstanding (s : State) : State :=
  (List.finRange 4).foldl (fun t b =>
    match t.rcl.outstanding[b] with
    | some c => condemnResult b c false t
    | none => t) s

/-- The end of STOPPING, judged after every event that may bring it about (R81, R192): with every bank idle
the wait list is discarded, and with both buffers FREE the mode becomes STANDBY. A condemn outstanding at the
Stop is taken and refused in STOPPING (R153): where its CONDEMN_TAKEN has not come by then, in the action that ends
STOPPING, before the mode changes. (DESIGN CHOICE, log 34) -/
def stoppingCheck (s : State) : State :=
  if s.cfg.mode = .stopping ∧ s.banksIdle then
    let s := discardWaitList s
    if s.plu.buffers.all (·.isNone) then { refuseOutstanding s with cfg.mode := .standby } else s
  else s

end Sys2Proof.Machine
end

