-- ==== Sys2Proof/Machine/Retention.lean ====
section
/-! DEFINITION. Retention: protection, expiry scans, release walks (chapters 6 and 7, less the requests). -/

namespace Sys2Proof.Machine

/-- A recipe is protected when its branch is held with a start day no later than its expiry day (R131). -/
def isProtected (m : RetentionMemory) (branch expiryDay : Nat) : Bool :=
  (assocGet m.holds branch).any (fun start => decide (start ≤ expiryDay))

/-- Expired and not protected, by the values in force (R109, R132). -/
def releasable (m : RetentionMemory) (r : Recipe) : Bool :=
  decide (r.expiryDay < m.day) && !isProtected m r.branch r.expiryDay

/-! ## Blocks of a recipe -/

/-- The records that a recipe's block holds: 4,096 but in the last block (R104, R113). -/
def recordsInBlock (r : Recipe) (k : Nat) : Nat :=
  if k + 1 < r.blocks.length then Config.blockRecords else r.recordCount - Config.blockRecords * k

/-- The length of a block object of `n` records (R104). -/
def blockLength (n : Nat) : Nat := 64 + 44 * n

/-- A record's 44 bytes (R102). -/
def recordBytes (r : Record) : List Byte :=
  digestBytes r.digest ++ beBytes 4 r.seq ++ beBytes 4 r.offset ++ beBytes 4 r.length

/-- A recipe block object (R104). -/
def blockBytes (number index : Nat) (rs : List Record) : List Byte :=
  beBytes 4 number ++ beBytes 2 index ++ beBytes 2 rs.length ++ beBytes 4 (Config.blockRecords * index) ++
    zeros 52 ++ rs.flatMap recordBytes

/-- Does a block header match its entry (R114, R163)? -/
def blockHeaderMatches (number : Nat) (r : Recipe) (k : Nat) (bs : List Byte) : Bool :=
  field bs 0 4 == number && field bs 4 2 == k && field bs 6 2 == recordsInBlock r k &&
    field bs 8 4 == Config.blockRecords * k

/-- The slab sequences that the records of a block name, in record order (R102, R104). -/
def blockSequences (n : Nat) (bs : List Byte) : List Nat :=
  (List.range n).map (fun j => field bs (64 + 44 * j + 32) 4)

/-! ## The release walk -/

/-- RCU skips a block whose records it cannot read, and counts them as leaked (R114). -/
def leakBlock (r : Recipe) (k : Nat) (s : State) : State :=
  { s with rcu.counters := { s.rcu.counters with leaked := countBy s.rcu.counters.leaked (recordsInBlock r k) } }

/-- A block's bytes arrive at the walk: each record gives back its reference when the header matches, and
the block is skipped when it does not (R113, R114). -/
def walkBlockData (number : Nat) (r : Recipe) (k : Nat) (bs : List Byte) (s : State) : State :=
  if blockHeaderMatches number r k bs then giveBackAll (blockSequences (recordsInBlock r k) bs) s else s

/-- A walk's block read fails: a walk read fault, the records leaked, and STORE_FAULT (R114). -/
def walkBlockFailed (r : Recipe) (k : Nat) (s : State) : State :=
  let s := leakBlock r k s
  raise (deviceNotice .storeFault)
    { s with rcu.counters := { s.rcu.counters with walkReadFaults := countBy s.rcu.counters.walkReadFaults 1 } }

/-- The walk asks for its blocks from block `k` on, `blocks` being those left, until one has to wait for a
store read (R113). The flag says whether it waits. -/
def walkFrom (number : Nat) (r : Recipe) : Nat → List Location → State → Bool × State
  | _, [], s => (false, s)
  | k, loc :: rest, s =>
    match slabRead .walk loc.seq loc.offset (blockLength (recordsInBlock r k)) s with
    | (.absent, t) => walkFrom number r (k + 1) rest (leakBlock r k t)
    | (.copied bs, t) => walkFrom number r (k + 1) rest (walkBlockData number r k bs t)
    | (.queued, t) => (true, { t with rcu.walk := some ⟨number, k⟩ })

/-- A walk ends: one reference is given back for each stored object, the entry leaves the catalog, and the
job is counted (R115). -/
def walkEnd (number : Nat) (r : Recipe) (s : State) : State :=
  let s := giveBackAll (r.blocks.map (·.seq)) s
  let s := if r.job = some .release then giveBackAll (r.head.toList.map (·.seq)) s else s
  let n := s.rcu.counters
  let n := if r.job = some .release then { n with released := countBy n.released 1 }
    else { n with abortJobs := countBy n.abortJobs 1 }
  { s with rcu := { s.rcu with catalog := assocErase s.rcu.catalog number, walk := none, counters := n } }

/-- RELEASES_IDLE when the release queue is empty (R115). -/
def noteReleasesIdle (s : State) : State :=
  if s.rcu.releaseQueue.isEmpty then raise (deviceNotice .releasesIdle) s else s

/-- RCU takes entries from the head of the release queue until a walk waits for a read or the queue is
empty (R112, R115). The number bounds how many it takes; the queue's length is enough. -/
def takeReleases : Nat → State → State
  | 0, s => s
  | n + 1, s =>
    match s.rcu.releaseQueue with
    | [] => s
    | number :: rest =>
      let s := { s with rcu.releaseQueue := rest }
      match assocGet s.rcu.catalog number with
      | none => takeReleases n s
      | some r =>
        if r.job = some .release ∧ isProtected s.rtn.memory r.branch r.expiryDay then
          let s := s.withRecipe number { r with state := .live, job := none }
          let s := { s with rcu.counters := { s.rcu.counters with walksReturned := countBy s.rcu.counters.walksReturned 1 } }
          takeReleases n (noteReleasesIdle s)
        else
          let s := s.withRecipe number { r with state := .releasing }
          match walkFrom number r 0 r.blocks s with
          | (true, t) => t
          | (false, t) => takeReleases n (noteReleasesIdle (walkEnd number r t))

/-- In OPERATING, with no walk running, RCU takes the head of the release queue (R112). -/
def startWalks (s : State) : State :=
  if s.cfg.mode = .operating ∧ s.rcu.walk = none then takeReleases s.rcu.releaseQueue.length s else s

/-- Entries become QUEUED with a job and join the tail of the release queue (R109, R110, R132). -/
def queueRelease (job : Job) (numbers : List Nat) (s : State) : State :=
  let s := numbers.foldl (fun t number =>
    match assocGet t.rcu.catalog number with
    | some r => t.withRecipe number { r with state := .queued, job := some job }
    | none => t) s
  startWalks { s with rcu.releaseQueue := s.rcu.releaseQueue ++ numbers }

/-- WALK_BLOCK_READ_COMPLETE (R113, R114, R116): a walk's block read completes. A completion for a walk
that has been abandoned is discarded. -/
def walkReadDone (result : OpResult) (bs : List Byte) (s : State) : State :=
  match s.rcu.walk with
  | none => s
  | some w =>
    match assocGet s.rcu.catalog w.recipe with
    | none => s
    | some r =>
      let t := match result with
        | .ok => walkBlockData w.recipe r w.block bs s
        | .fail => walkBlockFailed r w.block s
      match walkFrom w.recipe r (w.block + 1) (r.blocks.drop (w.block + 1)) t with
      | (true, u) => u
      | (false, u) => startWalks (noteReleasesIdle (walkEnd w.recipe r u))

/-! ## Expiry scans -/

/-- The LIVE entries that a scan queues: expired, unprotected, and of the branch when one is named; in
ascending recipe number order (R132, R133). -/
def expiredEntries (branch : Option Nat) (s : State) : List Nat :=
  (s.rcu.catalog.filter (fun e =>
    e.2.state == .live && releasable s.rtn.memory e.2 && (branch.all (fun b => e.2.branch == b)))).map Prod.fst

/-- An expiry scan, full or of one branch (R132, R133, R142). -/
def expiryScan (branch : Option Nat) (s : State) : State :=
  let found := expiredEntries branch s
  let n := s.rtn.counters
  let s := { s with rtn.counters := { n with scans := countBy n.scans 1, expired := countBy n.expired found.length } }
  queueRelease .release found s

/-! ## Retention writes -/

/-- The values in force after a write (R126). -/
def applyWrite (w : RetentionWrite) (m : RetentionMemory) : RetentionMemory :=
  match w with
  | .day d => { m with day := d }
  | .hold b start => { m with holds := assocSet m.holds b start }
  | .unhold b => { m with holds := assocErase m.holds b }
  | .freeze => { m with freeze := true }
  | .unfreeze => { m with freeze := false }

/-- The count and the notice of a completed write (R126, R142). -/
def reportWrite (s : State) : State :=
  let n := s.rtn.counters
  raise (deviceNotice .holdWritten) { s with rtn.counters := { n with writes := countBy n.writes 1 } }

/-- What a completed write hands on: a full scan after DAY, a branch scan after UNHOLD, in OPERATING; the
scan owed flag in REBUILDING (R126, R130, R133, R134). -/
def followUp (w : RetentionWrite) (s : State) : State :=
  let scan (branch : Option Nat) : State :=
    match s.cfg.mode with
    | .operating => expiryScan branch s
    | .rebuilding => { s with rtn.scanOwed := true }
    | _ => s
  match w with
  | .day _ => scan none
  | .unhold b => scan (some b)
  | _ => s

/-- RETENTION_WRITE_COMPLETE (R126, R128): the write's value is in force, HOLD_WRITTEN is raised and the
follow-up runs. While RST# is asserted the raise and the count wait for its release. -/
def execRetentionWriteComplete (s : State) : Out :=
  match s.rtn.inFlight with
  | none => absent .retentionWrite
  | some w =>
    let s := { s with rtn.memory := applyWrite w s.rtn.memory, rtn.inFlight := none }
    if s.lines.rst then act { s with rtn.reportOwed := true }
    else act (followUp w (reportWrite s))

end Sys2Proof.Machine
end

