-- ==== Sys2Proof/Machine/Chunker.lean ====
section
/-! DEFINITION. Content-defined chunking: the byte substitution, the rolling sums, the boundary test
(chapter 2), and the Digest Engine's arbiter (R11). -/

namespace Sys2Proof.Machine

/-- The substituted value of a byte (R28). -/
def substitute (b : Byte) : Nat := (b.toNat + 1) * 173 % 257

/-- The window's capacity (R29). -/
abbrev windowBytes : Nat := 48

/-- The chunker takes a byte: sums, window, position and current chunk length (R30). -/
def Chunker.take (c : Chunker) (x : Byte) : Chunker :=
  let v := substitute x
  let full := decide (windowBytes ≤ c.window.length)
  let oldest := substitute (c.window.headD 0#8)
  { window := (if full then c.window.drop 1 else c.window) ++ [x]
    a := if full then c.a + v - oldest else c.a + v
    b := c.b + windowBytes * v - c.a
    position := c.position + 1
    len := c.len + 1 }

/-- The sum A of a window by its definition (R29). -/
def windowA (w : List Byte) : Nat := (w.map substitute).sum

/-- The sum B of a window by its definition (R29): weight 48 for the newest byte, one less for each older. -/
def windowB (w : List Byte) : Nat :=
  ((w.reverse.zipIdx).map (fun e => (windowBytes - e.2) * substitute e.1)).sum

/-- The boundary test (R33): is there a boundary after a byte that makes the current chunk `len` bytes
long, with sum `b`? -/
def boundaryAfter (p : Profile) (len b : Nat) : Bool :=
  if len < p.min then false
  else if p.max ≤ len then true
  else if len < p.tgt then b % p.d1 == 0
  else b % p.d2 == 0

/-! ## The Digest Engine's arbiter -/

/-- The slots in the order in which the arbiter looks at them (R11). -/
def arbiterOrder (last : Fin 64) : List (Fin 64) :=
  (List.range 64).map (fun k => ⟨(last.val + 1 + k) % 64, Nat.mod_lt _ (by decide)⟩)

/-- The idle Digest Engine takes the next slot in DIGEST_WAIT by round robin (R11). -/
def dgeChoose (s : State) : State :=
  match s.dge.current with
  | some _ => s
  | none =>
    match (arbiterOrder s.dge.lastServed).find? (fun i => (s.slot i).phase == some .digestWait) with
    | none => s
    | some i =>
      { s.withSlot i { s.slot i with phase := some .digesting } with dge := ⟨some i, i⟩ }

/-- The slot's current chunk, `len` bytes long, becomes the chunk in hand, and the slot enters DIGEST_WAIT
(R10, R33, R36). -/
def cutChunk (i : Fin 64) (s : State) : State :=
  let x := s.slot i
  dgeChoose (s.withSlot i { x with
    hand := some ⟨x.chunker.len, none⟩
    chunker := { x.chunker with len := 0 }
    phase := some .digestWait })

end Sys2Proof.Machine
end

