-- ==== Sys2Proof/Machine/Streams.lean ====
section
/-! DEFINITION. Streams: records, blocks and heads, drains, deferral, commits, and the ends of streams
(chapters 1 and 6). -/

namespace Sys2Proof.Machine

/-! ## Deferral -/

/-- A refused placement puts the slot in DEFERRED with its item and raises STREAM_STALLED (R16). -/
def defer (i : Fin 64) (item : Item) (s : State) : State :=
  raise (slotNotice .streamStalled i)
    (s.withSlot i { s.slot i with phase := some .deferred, item := some item })

/-- The slot returns to SCANNING with nothing deferred (R14, R17). -/
def resumeScan (i : Fin 64) (s : State) : State :=
  s.withSlot i { s.slot i with phase := some .scanning, item := none }

/-! ## Blocks and heads -/

/-- RCU places a slot's record buffer as a recipe block (R104). The flag says whether it was placed. -/
def placeBlock (i : Fin 64) (s : State) : Bool × State :=
  let number := (s.slot i).recipe
  let buffer := s.recordBuffer i
  match placeObject (.recipeBlock number buffer.nextBlock) (blockBytes number buffer.nextBlock buffer.records) s with
  | (none, t) => (false, t)
  | (some loc, t) =>
    let t := t.withRecordBuffer i ⟨[], buffer.nextBlock + 1⟩
    match assocGet t.rcu.catalog number with
    | some r => (true, t.withRecipe number { r with blocks := r.blocks ++ [loc] })
    | none => (true, t)

/-- A recipe head object (R105). -/
def headBytes (number : Nat) (r : Recipe) : List Byte :=
  beBytes 4 number ++ beBytes 2 r.branch ++ beBytes 1 r.profileNo ++ beBytes 1 (closeCode r.closeReason) ++
    r.label ++ beBytes 2 r.openDay ++ beBytes 2 r.retentionDays ++ beBytes 2 r.expiryDay ++
    beBytes 2 r.blockCount ++ beBytes 4 r.recordCount ++ beBytes 8 r.byteTotal ++ zeros 84 ++
    r.blocks.flatMap (fun l => beBytes 4 l.seq ++ beBytes 4 l.offset)

/-- The catalog entry's close fields, completed from the slot before the head is placed (R105). -/
def closeFields (x : Slot) (r : Recipe) : Recipe :=
  { r with
    byteTotal := x.counters.chunked
    recordCount := x.records
    blockCount := r.blocks.length
    closeReason := x.closeReason }

/-- RCU completes the entry's close fields and places the recipe head, whose slab is flushed; the stream
then waits in COMMITTING (R21, R69, R105). Refused, the slot defers. -/
def placeHead (i : Fin 64) (s : State) : State :=
  let x := s.slot i
  match assocGet s.rcu.catalog x.recipe with
  | none => s
  | some r0 =>
    let r := closeFields x r0
    let s := s.withRecipe x.recipe r
    match placeObject (.recipeHead x.recipe) (headBytes x.recipe r) s with
    | (none, t) => defer i .head t
    | (some loc, t) =>
      let t := leaveFilling t
      let t := t.withRecipe x.recipe { r with head := some loc, state := .committing }
      t.withSlot i { t.slot i with state := .committing, phase := none, item := none, headSeq := some loc.seq }

/-- A drained slot's last placements: the final block, if the buffer holds records, and the head (R21). -/
def finalPlacements (i : Fin 64) (s : State) : State :=
  if (s.recordBuffer i).records.isEmpty then placeHead i s
  else
    match placeBlock i s with
    | (false, t) => defer i .block t
    | (true, t) => placeHead i t

/-- What a DRAINING slot in SCANNING does once its chunker has taken every intake byte: it cuts the final
chunk, or makes its last placements when nothing is left (R21, R36). Any other slot is left alone. -/
def drainStep (i : Fin 64) (s : State) : State :=
  let x := s.slot i
  if x.state = .draining ∧ x.phase = some .scanning ∧ x.hand = none ∧ x.intake.length ≤ x.chunker.len then
    if 0 < x.chunker.len then cutChunk i s else finalPlacements i s
  else s

/-- The slot asks for its block, and goes on as it would have had no placement been refused (R14, R17). -/
def blockStep (i : Fin 64) (s : State) : State :=
  match placeBlock i s with
  | (false, t) => defer i .block t
  | (true, t) => drainStep i (resumeScan i t)

/-! ## Records -/

/-- What became of a chunk whose record is formed (R14). -/
inductive ChunkFate where
  /-- It references a stored copy. -/
  | duplicate
  /-- It was placed, with an index entry. -/
  | indexed
  /-- It was placed without one: every way was pending, or its verify could not read (R50, R55). -/
  | unindexed
  /-- It was placed without one because its verify found different bytes (R54). -/
  | collided
  deriving DecidableEq, Repr

/-- The stream counters after a record of `len` bytes (R14). -/
def countRecord (fate : ChunkFate) (len : Nat) (c : StreamCounters) : StreamCounters :=
  let c := { c with chunks := countBy c.chunks 1, chunked := countBy c.chunked len }
  if fate = .duplicate then
    { c with dupChunks := countBy c.dupChunks 1, dupBytes := countBy c.dupBytes len }
  else
    { c with
      newChunks := countBy c.newChunks 1
      newBytes := countBy c.newBytes len
      unindexed := countBy c.unindexed (if fate = .indexed then 0 else 1)
      collisions := countBy c.collisions (if fate = .collided then 1 else 0) }

/-- Does a removal carry the free space across the watch level of an OPEN slot (R9)? -/
def crossesWatch (x : Slot) (before after : Nat) : Bool :=
  x.state == .opened && x.watchOn && decide (before < x.watchLevel * 1024) && decide (x.watchLevel * 1024 ≤ after)

/-- SIN's part of a record: the chunk leaves the intake, the counts rise, and the record limit takes the
rest of the intake (R8, R14, R20). -/
def recordSlot (fate : ChunkFate) (len : Nat) (x : Slot) : Slot :=
  let y := { x with
    intake := x.intake.drop len
    hand := none
    phase := some .scanning
    item := none
    records := x.records + 1
    counters := countRecord fate len x.counters }
  if y.records = Config.recordLimit then
    { y with
      intake := []
      counters := { y.counters with dropped := countBy y.counters.dropped y.intake.length }
      chunker := { y.chunker with len := 0 }
      state := .draining
      closeReason := some .limit }
  else y

/-- The record of the chunk in hand is formed, referring to a stored copy (R14, R20, R9, R102). -/
def formRecord (i : Fin 64) (loc : Location) (fate : ChunkFate) (s : State) : State :=
  let x := s.slot i
  match x.hand with
  | some ⟨len, some d⟩ =>
    let y := recordSlot fate len x
    let buffer := s.recordBuffer i
    let records := buffer.records ++ [⟨d, loc.seq, loc.offset, len⟩]
    let s := (s.withSlot i y).withRecordBuffer i { buffer with records := records }
    let s := if crossesWatch y (intakeFree x) (intakeFree y) then raise (slotNotice .streamSpace i) s else s
    if records.length = Config.blockRecords then blockStep i s else drainStep i s
  | _ => s

/-! ## Placement available -/

/-- A DEFERRED slot resubmits (R17). -/
def resubmit (i : Fin 64) (s : State) : State :=
  let x := s.slot i
  match x.item with
  | some .chunk =>
    match x.hand with
    | some ⟨len, some d⟩ =>
      let s := s.withSlot i { x with phase := some .lookup, item := none }
      { s with dix.lookups := s.dix.lookups ++ [⟨i, d, len⟩] }
    | _ => s
  | some .block => blockStep i s
  | some .head => placeHead i s
  | none => s

/-- PLU announces placement available: every slot then DEFERRED resubmits, in ascending slot order (R17, R74). -/
def placementAvailable (s : State) : State :=
  (allSlots.filter (fun i => (s.slot i).phase == some .deferred)).foldl (fun t i => resubmit i t) s

/-! ## The ends of streams -/

/-- A slot's summary, captured as it reaches DONE (1.1). -/
def summaryOf (x : Slot) (outcome : StreamOutcome) (reason : Option CloseReason) : Summary :=
  ⟨outcome, reason, x.recipe, x.counters.chunked, x.records, x.counters.newChunks, x.counters.dupChunks⟩

/-- A stream commits: the slot becomes DONE, the entry LIVE, and an expired, unprotected recipe joins the
release queue at once (R22, R109). -/
def commitSlot (i : Fin 64) (s : State) : State :=
  let x := s.slot i
  let s := s.withSlot i { x with
    state := .done
    phase := none
    outcome := some .committed
    summary := some (summaryOf x .committed x.closeReason) }
  let n := s.rcu.counters
  let s := { s with rcu.counters := { n with committed := countBy n.committed 1 } }
  let s := raise (slotNotice .streamDone i) s
  match assocGet s.rcu.catalog x.recipe with
  | none => s
  | some r =>
    let s := s.withRecipe x.recipe { r with state := .live }
    if releasable s.rtn.memory r then queueRelease .release [x.recipe] s else s

/-- Is the slot's head covered by the durable mark (R22)? -/
def headDurable (s : State) (i : Fin 64) : Bool :=
  (s.slot i).state == .committing &&
    (match (s.slot i).headSeq, s.plu.durableMark with
      | some h, some m => decide (h ≤ m)
      | _, _ => false)

/-- Every stream whose head the durable mark now covers commits, in ascending slot order (R22, R76).
(DEDUCED, log 22) -/
def commitDurable (s : State) : State :=
  (allSlots.filter (headDurable s)).foldl (fun t i => commitSlot i t) s

/-- Retire (R25, R175): the slot returns to its reset values, its notices leave the set and its latch is
emptied. -/
def retireSlot (i : Fin 64) (s : State) : State :=
  { s.withSlot i freeSlot with
    rpu := { s.rpu with
      notices := s.rpu.notices.filter (fun n => n.slot != some i)
      slotLatches := s.rpu.slotLatches.set i none } }

/-- The verify of an aborted slot ends without a result: its reference is given back, and its store read is
withdrawn where it still waits (R23, R56). -/
def dropVerify (i : Fin 64) (s : State) : State :=
  match s.dix.verifies[i] with
  | none => s
  | some v =>
    let s := { s with dix.verifies := s.dix.verifies.set i none }
    let keep (k : Bank) : Bank := { k with readQueue := k.readQueue.filter (fun j => j.who != .verify i v.ticket) }
    giveBack v.seq { s with stc.banks := s.stc.banks.map keep }

/-- The aborted recipe's entry: its close fields count what its placed blocks hold, and it is queued with
an abort job (R110). -/
def abortEntry (x : Slot) (buffered : List Record) (r : Recipe) : Recipe :=
  { r with
    recordCount := x.records - buffered.length
    byteTotal := x.counters.chunked - (buffered.map (·.length)).sum
    blockCount := r.blocks.length
    closeReason := some .abort }

/-- A stream in OPEN or DRAINING is aborted in one action (R23, R110). The manual gives no order among its
give-backs: the verify's comes first, then those of the record buffer. (DESIGN CHOICE, log 31) -/
def abortSlot (i : Fin 64) (s : State) : State :=
  let x := s.slot i
  let buffered := (s.recordBuffer i).records
  let s := dropVerify i { s with dix.lookups := s.dix.lookups.filter (fun l => l.slot != i) }
  let s := giveBackAll (buffered.map (·.seq)) s
  let s := s.withRecordBuffer i ⟨[], 0⟩
  let y := { x with
    counters := { x.counters with dropped := countBy x.counters.dropped x.intake.length }
    intake := []
    hand := none
    item := none
    phase := none
    closeReason := some .abort
    state := .done
    outcome := some .aborted }
  let s := s.withSlot i { y with summary := some (summaryOf y .aborted (some .abort)) }
  let s := raise (slotNotice .streamDone i) s
  let s : State := match assocGet s.rcu.catalog x.recipe with
    | none => s
    | some r => queueRelease .abort [x.recipe] (s.withRecipe x.recipe (abortEntry x buffered r))
  dgeChoose (if s.dge.current = some i then { s with dge.current := none } else s)

/-! ## Chunker and Digest Engine events -/

/-- The next intake byte of a slot whose chunker scans (R10, R32). -/
def nextByte (x : Slot) : Option Byte :=
  if (x.state = .opened ∨ x.state = .draining) ∧ x.phase = some .scanning ∧ x.hand = none then
    x.intake[x.chunker.len]?
  else none

/-- SCAN_BYTE (R30, R33, R36): the chunker takes a byte, and the boundary test or the end of a draining
intake cuts the chunk. -/
def execScanByte (i : Fin 64) (s : State) : Out :=
  match nextByte (s.slot i) with
  | none => absent .byteToScan
  | some b =>
    let c := (s.slot i).chunker.take b
    let t := s.withSlot i { s.slot i with chunker := c }
    act (if boundaryAfter (s.slot i).profile c.len c.b then cutChunk i t else drainStep i t)

/-- DIGEST_COMPLETE (R12): the digest is stored, the lookup joins the queue, and the engine chooses again. -/
def execDigestComplete (s : State) : Out :=
  match s.dge.current with
  | none => absent .digest
  | some i =>
    let x := s.slot i
    match x.hand with
    | none => absent .digest
    | some h =>
      let d := Config.digest (x.intake.take h.length)
      let t := s.withSlot i { x with hand := some ⟨h.length, some d⟩, phase := some .lookup }
      act (dgeChoose { t with dix.lookups := t.dix.lookups ++ [⟨i, d, h.length⟩], dge.current := none })

end Sys2Proof.Machine
end

