-- ==== Sys2Proof/Machine/Index.lean ====
section
/-! DEFINITION. The Dedup Index: lookups, insertion and eviction, verify (chapter 3). -/

namespace Sys2Proof.Machine

/-! ## Buckets and ways -/

/-- The bucket of a digest: its first 20 bits (R40). -/
def bucketOf (d : Digest) : Nat := d.toNat / 2 ^ 236

/-- The key under which the index map holds a way of a bucket (R41). -/
def wayKey (bucket : Nat) (way : Nat) : Nat := bucket * 8 + way

/-- The eight way numbers. -/
def ways : List Nat := [0, 1, 2, 3, 4, 5, 6, 7]

/-- What a way holds. -/
def wayEntry (index : Assoc IndexEntry) (bucket way : Nat) : Option IndexEntry := assocGet index (wayKey bucket way)

/-- The way of a bucket whose entry has a key (R44). -/
def findWay (index : Assoc IndexEntry) (d : Digest) (len : Nat) : Option (Nat × IndexEntry) :=
  ways.findSome? (fun w =>
    match wayEntry index (bucketOf d) w with
    | some e => if e.digest = d ∧ e.length = len then some (w, e) else none
    | none => none)

/-- The way of the lowest slab sequence among those given, the lower way number on a tie (R49). -/
def oldestWay : List (Nat × IndexEntry) → Option Nat
  | [] => none
  | (w, e) :: rest =>
    match oldestWay rest, rest.map (fun x => x.2.seq) with
    | some w', seqs => if seqs.all (fun q => decide (e.seq ≤ q)) then some w else some w'
    | none, _ => some w

/-- Where an insertion puts its entry (R49). -/
inductive WayChoice where
  | empty (way : Nat)
  | evict (way : Nat)
  | unindexed
  deriving DecidableEq, Repr

/-- DIX chooses a way for an inserted entry: the lowest empty one, the lowest stale one, the programmed one
of the lowest sequence, or none when all are pending (R42, R49, R50). -/
def chooseWay (p : Plu) (index : Assoc IndexEntry) (bucket : Nat) : WayChoice :=
  match ways.find? (fun w => (wayEntry index bucket w).isNone) with
  | some w => .empty w
  | none =>
    let held := ways.filterMap (fun w => (wayEntry index bucket w).map (fun e => (w, e)))
    match held.find? (fun x => !p.mapped x.2.seq) with
    | some x => .evict x.1
    | none =>
      match oldestWay (held.filter (fun x => !p.pending x.2.seq)) with
      | some w => .evict w
      | none => .unindexed

/-! ## Lookups -/

/-- Is verify in force for a slot (R13, R45)? -/
def verifyInForce (s : State) (i : Fin 64) : Bool :=
  match (s.slot i).verifyOverride with
  | .on => true
  | .off => false
  | .default => s.setting 20 == 1

/-- The bytes of a slot's chunk in hand, at the head of its intake (1.1). -/
def handBytes (x : Slot) : List Byte :=
  match x.hand with
  | some h => x.intake.take h.length
  | none => []

/-- An accepted hit: the record is formed, or a verify begins (R45, R52). -/
def takeHit (l : Lookup) (e : IndexEntry) (s : State) : State :=
  let n := s.dix.counters
  let s := { s with
    plu := s.plu.addReference e.seq
    dix := { s.dix with counters := { n with hits := countBy n.hits 1 } } }
  if verifyInForce s l.slot then
    let ticket := s.dix.nextTicket
    let r := slabRead (.verify l.slot ticket) e.seq e.offset e.length s
    let copied := match r.1 with
      | .copied bs => some bs
      | _ => none
    let s := r.2
    let s := { s with dix := { s.dix with
        verifies := s.dix.verifies.set l.slot (some ⟨ticket, e.seq, e.offset, e.length, copied⟩)
        nextTicket := ticket + 1 } }
    s.withSlot l.slot { s.slot l.slot with phase := some .verifying }
  else formRecord l.slot ⟨e.seq, e.offset⟩ .duplicate s

/-- A new entry goes into the way that R49 chooses, or the chunk stays unindexed (R49, R50). The flag says
whether an entry was made. -/
def insertEntry (e : IndexEntry) (s : State) : Bool × State :=
  let n := s.dix.counters
  let put (w : Nat) := assocSet s.dix.index (wayKey (bucketOf e.digest) w) e
  match chooseWay s.plu s.dix.index (bucketOf e.digest) with
  | .empty w => (true, { s with dix.index := put w })
  | .evict w => (true, { s with dix := { s.dix with index := put w, counters := { n with evictions := countBy n.evictions 1 } } })
  | .unindexed => (false, { s with dix.counters := { n with unindexed := countBy n.unindexed 1 } })

/-- A miss, or a hit refused as stale whose way is given: the chunk is placed and the entry written, or the
slot defers (R46, R48). -/
def takeMiss (l : Lookup) (stale : Option Nat) (s : State) : State :=
  let n := s.dix.counters
  let s := { s with dix.counters := { n with misses := countBy n.misses 1 } }
  match placeObject (.chunk l.digest) (handBytes (s.slot l.slot)) s with
  | (none, t) => defer l.slot .chunk t
  | (some loc, t) =>
    let e : IndexEntry := ⟨l.digest, l.length, loc.seq, loc.offset⟩
    match stale with
    | some w => formRecord l.slot loc .indexed { t with dix.index := assocSet t.dix.index (wayKey (bucketOf l.digest) w) e }
    | none =>
      match insertEntry e t with
      | (true, u) => formRecord l.slot loc .indexed u
      | (false, u) => formRecord l.slot loc .unindexed u

/-- DIX takes a lookup, which has left the queue (R44). -/
def takeLookup (l : Lookup) (s : State) : State :=
  let n := s.dix.counters
  let s := { s with dix.counters := { n with lookups := countBy n.lookups 1 } }
  match findWay s.dix.index l.digest l.length with
  | some (w, e) =>
    if s.plu.mapped e.seq then takeHit l e s
    else
      let n := s.dix.counters
      takeMiss l (some w) { s with dix.counters := { n with staleHits := countBy n.staleHits 1 } }
  | none => takeMiss l none s

/-- LOOKUP_TAKEN (R44): DIX takes the lookup at the head of the queue. -/
def execLookupTaken (s : State) : Out :=
  match s.dix.lookups with
  | [] => absent .lookup
  | l :: rest => act (takeLookup l { s with dix.lookups := rest })

/-! ## Verify -/

/-- The verify has matched: the record keeps the reference taken at the hit (R53). -/
def verifyMatched (i : Fin 64) (v : Verify) (s : State) : State :=
  formRecord i ⟨v.seq, v.offset⟩ .duplicate { s with dix.verifies := s.dix.verifies.set i none }

/-- The verify found different bytes, or could not read them: the reference is given back and the chunk
placed as a new unindexed object, or the slot defers (R54, R55). -/
def verifyUnmatched (i : Fin 64) (v : Verify) (fate : ChunkFate) (s : State) : State :=
  let s := giveBack v.seq { s with dix.verifies := s.dix.verifies.set i none }
  let n := s.dix.counters
  let s := match fate with
    | .collided => raise (deviceNotice .collision) { s with dix.counters := { n with collisions := countBy n.collisions 1 } }
    | _ => raise (deviceNotice .storeFault) { s with dix.counters := { n with verifyFaults := countBy n.verifyFaults 1 } }
  match (s.slot i).hand.bind (·.digest) with
  | none => s
  | some d =>
    match placeObject (.chunk d) (handBytes (s.slot i)) s with
    | (none, t) => defer i .chunk t
    | (some loc, t) =>
      let n := t.dix.counters
      formRecord i loc fate { t with dix.counters := { n with unindexed := countBy n.unindexed 1 } }

/-- DIX compares the stored bytes with the chunk in hand (R52, R53, R54). -/
def verifyCompared (i : Fin 64) (v : Verify) (stored : List Byte) (s : State) : State :=
  if stored = handBytes (s.slot i) then verifyMatched i v s else verifyUnmatched i v .collided s

/-- VERIFY_COMPARE (R52, R56): the comparison event of a verify whose bytes were copied from a fill buffer.
One for a verify no longer in the table is discarded. -/
def execVerifyCompare (i : Fin 64) (ticket : Nat) (s : State) : Out :=
  match s.dix.verifies[i] with
  | some ⟨t, seq, offset, length, some bs⟩ =>
    if t = ticket then act (verifyCompared i ⟨t, seq, offset, length, some bs⟩ bs s) else act s
  | _ => act s

/-- The store read of a verify has completed (R52, R55, R56). One for a verify no longer in the table is
discarded. -/
def verifyReadDone (i : Fin 64) (ticket : Nat) (result : OpResult) (bs : List Byte) (s : State) : State :=
  match s.dix.verifies[i] with
  | some v =>
    if v.ticket = ticket ∧ v.copied = none then
      match result with
      | .ok => verifyCompared i v bs s
      | .fail => verifyUnmatched i v .unindexed s
    else s
  | none => s

end Sys2Proof.Machine
end

