-- ==== Sys2Proof/Machine/Link.lean ====
section
/-! DEFINITION. The Link Interface: the taking of frames, replies, the transmit queue, the read-request
table (chapter 11). -/

namespace Sys2Proof.Machine

/-- The statuses of a reply (R184). -/
inductive Status where
  | ok
  | busy
  | state
  | range
  | window
  | notReady
  | catalogFull
  | custody
  | backward
  | gone
  | storeError
  | unknown
  | malformed
  deriving DecidableEq, Repr

/-- The code of a status (R184). -/
def Status.code : Status → Nat
  | .ok => 0x00
  | .busy => 0x01
  | .state => 0x02
  | .range => 0x03
  | .window => 0x04
  | .notReady => 0x05
  | .catalogFull => 0x06
  | .custody => 0x07
  | .backward => 0x08
  | .gone => 0x09
  | .storeError => 0x0A
  | .unknown => 0x0B
  | .malformed => 0x0C

/-- What an owner answers: a status and a body (R182). -/
structure Reply where
  status : Status
  body : List Byte
  deriving DecidableEq, Repr

/-- A reply with an empty body (R182). -/
def plain (st : Status) : Reply := ⟨st, []⟩

/-- A reply's payload: the request's kind, the status, the body (11.6). -/
def replyPayload (kind : Byte) (r : Reply) : List Byte := kind :: BitVec.ofNat 8 r.status.code :: r.body

/-- An immediate reply joins the transmit queue, and LIF waits for it to begin before it takes the next
request (R182, R183). -/
def sendReply (kind : Byte) (tag : BitVec 16) (r : Reply) (s : State) : State :=
  { s with lif := { s.lif with
      tx := s.lif.tx ++ [.reply true false tag (replyPayload kind r)]
      awaiting := true } }

/-- The reply to a Read Recipe or a Read Chunk joins the transmit queue (R183, R185). -/
def sendRestoreReply (kind : Byte) (tag : BitVec 16) (r : Reply) (s : State) : State :=
  { s with lif.tx := s.lif.tx ++ [.reply false false tag (replyPayload kind r)] }

/-- LIF discards a bad frame, counts it and raises LINK_ERROR (R180). -/
def discardBadFrame (s : State) : State :=
  raise (deviceNotice .linkError) { s with lif.linkErrors := countBy s.lif.linkErrors 1 }

/-- LIF accepts the next frame: no immediate reply waits to begin, no Reset has been taken, and the link
holds no earlier frame (R183, R188). -/
def linkReady (s : State) : Bool := !s.lif.awaiting && !s.lif.resetTaken && s.lif.held.isEmpty

/-- A frame delivered by the link. Held in reset LIF takes none (R189); a frame that LIF does not yet accept
is held by the link's pacing (R183); a payload above 8,256 bytes makes the frame bad (R180). (log 8) -/
def deliver (i : Instr) (payloadLength : Nat) (taken : State → State) (s : State) : State :=
  if s.inReset then s
  else if linkReady s then
    if Config.payloadMax < payloadLength then discardBadFrame s else taken s
  else { s with lif.held := s.lif.held ++ [i] }

/-- Checks 2 and 3 of R181. -/
def wellFormedRequest (kind : Byte) (f : Frame) : Bool :=
  f.flags == 0#8 && lengthAllowed kind.toNat f.payload.length

/-- A request answered in the action that takes it (R181, R182). The reply joins the queue behind an attention
frame that the same action issues. (DESIGN CHOICE, log 18) -/
def request (kind : Byte) (i : Instr) (f : Frame) (take : State → State × Reply) (s : State) : Out :=
  act (deliver i f.payload.length (fun t =>
    if wellFormedRequest kind f then sendReply kind f.tag (take t).2 (take t).1
    else sendReply kind f.tag (plain .malformed) t) s)

/-- A request that may be answered when its read completes (R182, R185): `take` answers none then. A
MALFORMED reply to one is an immediate reply. (DEDUCED, log 17) -/
def restoreRequest (kind : Byte) (i : Instr) (f : Frame) (take : State → State × Option Reply) (s : State) : Out :=
  act (deliver i f.payload.length (fun t =>
    if wellFormedRequest kind f then
      match (take t).2 with
      | some r => sendRestoreReply kind f.tag r (take t).1
      | none => (take t).1
    else sendReply kind f.tag (plain .malformed) t) s)

/-! ## Link commands -/

/-- BAD_FRAME (R180). -/
def execBadFrame (bytes : List Byte) (s : State) : Out :=
  if frameIsBad bytes then
    act (if s.inReset then s
      else if linkReady s then discardBadFrame s
      else { s with lif.held := s.lif.held ++ [.badFrame bytes] })
  else absent .badFrame

/-- UNKNOWN_REQUEST_KIND (R181): answered UNKNOWN, with the received kind and an empty body. -/
def execUnknownRequestKind (kind : Byte) (f : Frame) (s : State) : Out :=
  if isRequestKind kind then absent .unknownKind
  else act (deliver (.unknownRequestKind kind f) f.payload.length (sendReply kind f.tag (plain .unknown)) s)

/-- The bytes of a frame as its sending begins: the flags byte shows whether the notice set is non-empty
at that moment (R184, R186). -/
def wireBytes (noticesPending : Bool) : TxFrame → List Byte
  | .reply _ _ tag payload => frameBytes 0x80#8 (if noticesPending then 1#8 else 0#8) tag payload
  | .attention pairs => frameBytes 0x81#8 (if noticesPending then 1#8 else 0#8) 0#16 (beBytes 2 (pairs.getD 0))

/-- Is this the immediate reply that LIF waits for (R183)? -/
def TxFrame.isImmediate : TxFrame → Bool
  | .reply im _ _ _ => im
  | .attention _ => false

/-- Is this the reply to a Reset (R188)? -/
def TxFrame.isReset : TxFrame → Bool
  | .reply _ r _ _ => r
  | .attention _ => false

/-- FRAME_TRANSMIT (R183, R184): LIF begins to send the oldest frame in the transmit queue. Behind the reply
to a Reset nothing is sent (R188). (DEDUCED, log 16) -/
def execFrameTransmit (s : State) : Out :=
  match s.lif.tx with
  | [] => absent .frameToSend
  | t :: rest =>
    if s.lif.wire.any (·.reset) then absent .frameToSend
    else act { s with lif := { s.lif with
      tx := rest
      wire := some ⟨wireBytes (!s.rpu.notices.isEmpty) t, t.isReset⟩
      awaiting := if t.isImmediate then false else s.lif.awaiting } }

/-! ## Read slots -/

/-- The lowest-numbered free read slot (R185). -/
def freeReadSlot (s : State) : Option (Fin 16) :=
  (List.finRange 16).find? (fun i => s.lif.reads[i].isNone)

/-- The reply of a read that has ended: the data of R123 or R124, or STORE_ERROR. -/
def restoreReply (q : ReadRequest) (result : OpResult) (bs : List Byte) : Reply :=
  match result with
  | .fail => plain .storeError
  | .ok =>
    match q with
    | .recipe number first count => ⟨.ok, beBytes 4 number ++ beBytes 4 first ++ beBytes 1 count ++ bs⟩
    | .chunk => ⟨.ok, bs⟩

/-- The request kind of a held read slot (R181). -/
def ReadRequest.kind : ReadRequest → Byte
  | .recipe _ _ _ => 0x19#8
  | .chunk => 0x1A#8

/-- The store read of a read slot has completed: the reply joins the transmit queue and the slot is free
(R123, R124, R185). -/
def restoreReadDone (i : Fin 16) (result : OpResult) (bs : List Byte) (s : State) : State :=
  match s.lif.reads[i] with
  | none => s
  | some r =>
    sendRestoreReply r.request.kind r.tag (restoreReply r.request result bs)
      { s with lif.reads := s.lif.reads.set i none }

/-- A Read Recipe or Read Chunk that has passed its owner's checks takes a read slot and issues its read; a
read copied from a fill buffer is answered at once, and a full table answers BUSY (R185). -/
def startRestore (tag : BitVec 16) (q : ReadRequest) (seq off len : Nat) (s : State) : State × Option Reply :=
  match freeReadSlot s with
  | none => (s, some (plain .busy))
  | some i =>
    match slabRead (.restore i) seq off len s with
    | (.copied bs, t) => (t, some (restoreReply q .ok bs))
    | (.queued, t) => ({ t with lif.reads := t.lif.reads.set i (some ⟨tag, q⟩) }, none)
    | (.absent, t) => (t, some (plain .gone))

end Sys2Proof.Machine
end

