-- ==== Sys2Proof/Machine/Rebuild.lean ====
section
/-! DEFINITION. The rebuild at Start: scan, catalog judgement, recount, resumption (chapter 9). -/

namespace Sys2Proof.Machine

/-- Change the rebuild in progress. -/
def State.onRebuild (s : State) (f : Rebuild → Rebuild) : State := { s with cfg.rebuild := s.cfg.rebuild.map f }

/-- Change the rebuild counters. -/
def State.onRebuildCounters (s : State) (f : RebuildCounters → RebuildCounters) : State :=
  { s with cfg.counters := f s.cfg.counters }

/-- The segments in use, as applied by Start (R60, R155). -/
def State.segmentsInUse (s : State) : Nat := s.setting 24

/-! ## Phase 1: the scan -/

/-- The slabs of the segments in use that lie on a bank (R156). -/
def scanTotal (b : Fin 4) (inUse : Nat) : Nat := Config.slabsPerSegment * ((inUse + 3 - b.val) / 4)

/-- The k-th slab that the scan reads at a bank: ascending segments, and slabs 0 to 31 within each (R156). -/
def scanPlace (b : Fin 4) (k : Nat) : Place :=
  ⟨b.val + 4 * (k / Config.slabsPerSegment), k % Config.slabsPerSegment⟩

/-- The rebuild issues one further scan read at a bank, where one is left (R156). -/
def issueScan (b : Fin 4) (s : State) : State :=
  match s.cfg.rebuild with
  | none => s
  | some r =>
    if r.issued[b] < scanTotal b s.segmentsInUse then
      queueRead ⟨.scan, scanPlace b r.issued[b], 0, Config.slabBytes⟩
        (s.onRebuild (fun r => { r with issued := r.issued.set b (r.issued[b] + 1) }))
    else s

/-- The first 32 reads of each bank (R156). -/
def beginScan (s : State) : State :=
  (List.finRange 4).foldl (fun t b => (List.range Config.rebuildReads).foldl (fun u _ => issueScan b u) t) s

/-- How the rebuild counts a slab: by its bytes, but TORN after a read failure and TORN for the later of two
slabs of one sequence (R94, R156). -/
def rebuildCondition (p : Plu) (place : Place) (result : OpResult) (bs : List Byte) : SlabCondition :=
  match result with
  | .fail => .torn
  | .ok =>
    if slabCondition place bs = .valid ∧ p.mapped (field bs (Config.slabBytes - Config.trailerUnit) 4) then .torn
    else slabCondition place bs

/-- The rank of an index entry: by slab sequence, and by offset within one sequence (R158). -/
def IndexEntry.rank (e : IndexEntry) : Nat := e.seq * 4294967296 + e.offset

/-- The lowest-ranked of some ways (R158). -/
def lowestRanked : List (Nat × IndexEntry) → Option (Nat × IndexEntry)
  | [] => none
  | x :: rest =>
    match lowestRanked rest with
    | none => some x
    | some y => if x.2.rank ≤ y.2.rank then some x else some y

/-- An index entry offered by the rebuild (R158). The flag says whether a chunk entry was left out. -/
def offerEntry (e : IndexEntry) (index : Assoc IndexEntry) : Bool × Assoc IndexEntry :=
  let bucket := bucketOf e.digest
  match findWay index e.digest e.length with
  | some (w, old) => (false, if old.rank < e.rank then assocSet index (wayKey bucket w) e else index)
  | none =>
    match ways.find? (fun w => (wayEntry index bucket w).isNone) with
    | some w => (false, assocSet index (wayKey bucket w) e)
    | none =>
      match lowestRanked (ways.filterMap (fun w => (wayEntry index bucket w).map (fun x => (w, x)))) with
      | some (w, old) => (true, if old.rank < e.rank then assocSet index (wayKey bucket w) e else index)
      | none => (true, index)

/-- The close reason that a recipe head's byte holds (R105). (log 26) -/
def closeReasonOf (n : Nat) : Option CloseReason :=
  match n with
  | 1 => some .ended
  | 2 => some .count
  | 3 => some .limit
  | _ => none

/-- The head candidate that a slab's bytes hold at an offset (R105, R157). -/
def headCandidate (seq off : Nat) (bs : List Byte) : Nat × Recipe :=
  let h := bs.drop off
  let n := field h 30 2
  (field h 0 4,
    { branch := field h 4 2
      label := (h.drop 8).take 16
      profileNo := field h 6 1
      openDay := field h 24 2
      retentionDays := field h 26 2
      expiryDay := field h 28 2
      byteTotal := field h 36 8
      recordCount := field h 32 4
      blockCount := n
      closeReason := closeReasonOf (field h 7 1)
      blocks := (List.range n).map (fun k => ⟨field h (128 + 8 * k) 4, field h (132 + 8 * k) 4⟩)
      head := some ⟨seq, off⟩
      state := .live
      job := none
      damaged := false })

/-- The higher of a number found so far and another. -/
def highest (old : Option Nat) (n : Nat) : Option Nat := some (old.elim n (Nat.max n))

/-- The rebuild takes the i-th trailer entry of a VALID slab (R157). An entry of another kind adds nothing.
(DESIGN CHOICE, log 26) -/
def takeTrailer (seq : Nat) (bs : List Byte) (s : State) (i : Nat) : State :=
  let e := bs.drop (Config.slabBytes - Config.trailerUnit - Config.trailerUnit * (i + 1))
  let off := field e 4 4
  match field e 0 1 with
  | 1 =>
    let r := offerEntry ⟨digestAt e 12, field e 8 4, seq, off⟩ s.dix.index
    let s := { s with dix.index := r.2 }
    if r.1 then s.onRebuildCounters (fun c => { c with leftOut := countBy c.leftOut 1 }) else s
  | 2 => s.onRebuild (fun r => { r with highestRecipe := highest r.highestRecipe (field e 12 4) })
  | 3 =>
    let s := s.onRebuild (fun r => { r with
      highestRecipe := highest r.highestRecipe (field e 12 4)
      heads := r.heads ++ [headCandidate seq off bs] })
    s.onRebuildCounters (fun c => { c with headsFound := countBy c.headsFound 1 })
  | _ => s

/-- The rebuild takes a VALID slab: a slab map entry, the highest sequence, and its trailer entries in
object order (R157). -/
def takeValidSlab (place : Place) (bs : List Byte) (s : State) : State :=
  let header := bs.drop (Config.slabBytes - Config.trailerUnit)
  let seq := field header 0 4
  let s := { s with plu.map := assocSet s.plu.map seq ⟨some place, 0⟩ }
  let s := s.onRebuild (fun r => { r with highestSeq := highest r.highestSeq seq })
  (List.range (field header 8 2)).foldl (takeTrailer seq bs) s

/-- A slab is classified: counted, and taken when it is VALID (R156, R157, R167). -/
def classifySlab (place : Place) (c : SlabCondition) (bs : List Byte) (s : State) : State :=
  match c with
  | .blank => s.onRebuildCounters (fun n => { n with slabsBlank := countBy n.slabsBlank 1 })
  | .torn => s.onRebuildCounters (fun n => { n with slabsTorn := countBy n.slabsTorn 1 })
  | .valid => takeValidSlab place bs (s.onRebuildCounters (fun n => { n with slabsValid := countBy n.slabsValid 1 }))

/-- A tally with one slab more. -/
def Tally.add (t : Tally) (c : SlabCondition) : Tally :=
  match c with
  | .blank => { t with blank := t.blank + 1 }
  | .valid => { t with valid := t.valid + 1 }
  | .torn => { t with torn := t.torn + 1 }

/-- A segment whose 32 slabs are all classified gets its state (R159). One that is CONDEMNED sets its bank's
erase flag (R143). -/
def classifySegment (segment : Nat) (t : Tally) (s : State) : State :=
  let put (st : SegState) : State := { s with plu.segments := assocSet s.plu.segments segment st }
  if 0 < t.valid then
    (put .closed).onRebuildCounters (fun n => { n with segmentsClosed := countBy n.segmentsClosed 1 })
  else if 0 < t.torn then
    giveErase (bankOf segment)
      (((put .condemned).withEraseFlag (bankOf segment) true).onRebuildCounters
        (fun n => { n with segmentsQueued := countBy n.segmentsQueued 1 }))
  else (put .free).onRebuildCounters (fun n => { n with segmentsFree := countBy n.segmentsFree 1 })

/-- The tally of a segment with one slab more, and the segment's state at its 32nd (R159). -/
def tallySlab (segment : Nat) (c : SlabCondition) (s : State) : State :=
  let old := (s.cfg.rebuild.bind (fun r => assocGet r.tallies segment)).getD ⟨0, 0, 0⟩
  let t := old.add c
  let s := s.onRebuild (fun r => { r with
    classified := r.classified + 1
    tallies := assocSet r.tallies segment t })
  if t.valid + t.torn + t.blank = Config.slabsPerSegment then classifySegment segment t s else s

/-! ## Phase 4: resumption -/

/-- Phase 4 (R164), its seven steps in order. -/
def resumption (s : State) : State :=
  let r := s.cfg.rebuild
  let highestSeq := r.bind (·.highestSeq)
  let highestRecipe := r.bind (·.highestRecipe)
  let next := Nat.min (highestSeq.elim 16 (· + 16)) Config.sequenceEnd
  let recipe := highestRecipe.elim 64 (· + 64)
  let s := { s with
    plu.nextSeq := some next
    plu.floor := highestSeq
    rcu.nextRecipe := some (if recipe < Config.recipeNumbersUsedUp then recipe else Config.recipeNumbersUsedUp) }
  let live := s.rcu.catalog.length
  let damaged := (s.rcu.catalog.filter (·.2.damaged)).length
  let s := { s with cfg := { s.cfg with
    result := .complete
    counters := { s.cfg.counters with recipesLive := countBy 0 live, recipesDamaged := countBy 0 damaged }
    mode := .operating
    rebuild := none } }
  let s := if s.rtn.scanOwed then { expiryScan none s with rtn.scanOwed := false } else s
  raise (deviceNotice .rebuildDone) (reclaimOnEntry s)

/-! ## Phase 3: the recount -/

/-- Add references, one after another, to the sequences that the map holds (R162, R163). -/
def addReferences (seqs : List Nat) (p : Plu) : Plu := seqs.foldl (fun q n => q.addReference n) p

/-- The references of a LIVE entry's own objects, and the damaged flag where a block's sequence is absent
(R162). -/
def countObjects (s : State) (e : Nat × Recipe) : State :=
  let r := e.2
  let damaged := r.damaged || r.blocks.any (fun l => !s.plu.mapped l.seq)
  let s := { s with plu := addReferences (r.head.toList.map Location.seq ++ r.blocks.map Location.seq) s.plu }
  s.withRecipe e.1 { r with damaged := damaged }

/-- The blocks of an entry that the map still holds, as recipe number and block index (R162). -/
def presentBlocks (p : Plu) (e : Nat × Recipe) : List (Nat × Nat) :=
  (e.2.blocks.zipIdx.filter (fun l => p.mapped l.1.seq)).map (fun l => (e.1, l.2))

/-- The store read of a block for the recount (R113, R162). -/
def recountRead (s : State) (x : Nat × Nat) : Option ReadJob :=
  match assocGet s.rcu.catalog x.1 with
  | none => none
  | some r =>
    match r.blocks[x.2]? with
    | none => none
    | some l => (s.plu.placeOf l.seq).map
        (fun p => ⟨.recount x.1 x.2, p, l.offset, blockLength (recordsInBlock r x.2)⟩)

/-- The reads that a bank has outstanding, waiting or running (R85). The read that has just completed at the
bank `done` is one no more (R89; DEDUCED, log 9). -/
def readsOutstanding (done : Fin 4) (s : State) (b : Fin 4) : Nat :=
  let k := s.bank b
  k.readQueue.length + (match k.running with
    | some (.read _) => if b = done then 0 else 1
    | _ => 0)

/-- The rebuild issues block reads in order, at most 32 outstanding at a bank; it answers those it passes
over (R162). (DEDUCED, log 9) -/
def issueRecounts (done : Fin 4) : List (Nat × Nat) → State → List (Nat × Nat) × State
  | [], s => ([], s)
  | x :: rest, s =>
    match recountRead s x with
    | none => issueRecounts done rest s
    | some j =>
      if readsOutstanding done s (bankOf j.place.segment) < Config.rebuildReads then
        issueRecounts done rest (queueRead j s)
      else (x :: (issueRecounts done rest s).1, (issueRecounts done rest s).2)

/-- Phase 3 begins (R162), in the action of a scan read's completion at the bank `done`. With no block to read
it ends in the same action. -/
def beginRecount (done : Fin 4) (s : State) : State :=
  let s := s.rcu.catalog.foldl countObjects s
  let blocks := s.rcu.catalog.flatMap (presentBlocks s.plu)
  if blocks.isEmpty then resumption s
  else
    let r := issueRecounts done blocks s
    r.2.onRebuild (fun x => { x with phase := .recount, toIssue := r.1, blocksLeft := blocks.length })

/-- One further block read at a bank: the first, in order, of those not yet issued that lie there (R162). -/
def issueNextRecount (b : Fin 4) (s : State) : State :=
  let waiting := (s.cfg.rebuild.map (·.toIssue)).getD []
  match waiting.find? (fun x => (recountRead s x).any (fun j => bankOf j.place.segment == b)) with
  | none => s
  | some x =>
    match recountRead s x with
    | none => s
    | some j => queueRead j (s.onRebuild (fun r => { r with toIssue := r.toIssue.erase x }))

/-- A block of the recount with its records counted, or the entry marked damaged (R163). -/
def countBlock (number k : Nat) (result : OpResult) (bs : List Byte) (s : State) : State :=
  match assocGet s.rcu.catalog number with
  | none => s
  | some r =>
    match result with
    | .fail =>
      let n := s.rcu.counters
      { s with rcu.counters := { n with walkReadFaults := countBy n.walkReadFaults 1 } }.withRecipe number { r with damaged := true }
    | .ok =>
      if blockHeaderMatches number r k bs then
        let seqs := blockSequences (recordsInBlock r k) bs
        let t := s.withRecipe number { r with damaged := r.damaged || seqs.any (fun q => !s.plu.mapped q) }
        { t with plu := addReferences seqs t.plu }
      else s.withRecipe number { r with damaged := true }

/-- A block read of the recount completes (R162, R163). -/
def recountReadDone (b : Fin 4) (number k : Nat) (result : OpResult) (bs : List Byte) (s : State) : State :=
  match s.cfg.rebuild with
  | none => s
  | some r =>
    let t := issueNextRecount b (countBlock number k result bs s)
    if r.blocksLeft ≤ 1 then resumption t
    else t.onRebuild (fun r => { r with blocksLeft := r.blocksLeft - 1 })

/-! ## Phase 2: catalog judgement -/

/-- The sequence of a recipe's head. -/
def headSequence (r : Recipe) : Nat := (r.head.map Location.seq).getD 0

/-- Does a candidate's head lie in a higher sequence than another's (R160)? -/
def headAbove (x y : Recipe) : Bool := headSequence y < headSequence x

/-- One candidate for each recipe number: the one whose head lies in the highest sequence (R160), and the first
found of two in one slab. (DESIGN CHOICE, log 26) -/
def keepHighest (heads : List (Nat × Recipe)) : Assoc Recipe :=
  heads.foldl (fun m e =>
    match assocGet m e.1 with
    | some r => if headAbove e.2 r then assocSet m e.1 e.2 else m
    | none => assocSet m e.1 e.2) []

/-- Phase 2 (R160, R161): expired heads are dropped, repeated recipe numbers settled, and the LIVE catalog
made, or the rebuild ends OVER_CAPACITY. The scan read that ends phase 1 has completed at the bank `done`. -/
def catalogJudgement (done : Fin 4) (s : State) : State :=
  let heads := (s.cfg.rebuild.map (·.heads)).getD []
  let kept := heads.filter (fun e => !releasable s.rtn.memory e.2)
  let entries := keepHighest kept
  let s := s.onRebuildCounters (fun n => { n with
    headsExpired := countBy n.headsExpired (heads.length - kept.length)
    headsSuperseded := countBy n.headsSuperseded (kept.length - entries.length) })
  if Config.catalogCapacity < entries.length then
    raise (deviceNotice .rebuildDone)
      { s with
        cfg := { s.cfg with result := .overCapacity, mode := .standby, rebuild := none }
        rtn.scanOwed := false }
  else beginRecount done { s with rcu.catalog := entries }

/-- A scan read completes (R156): the slab is classified, its segment with it at the 32nd, a further read is
issued, and phase 1 ends with the last slab. -/
def scanReadDone (b : Fin 4) (place : Place) (result : OpResult) (bs : List Byte) (s : State) : State :=
  match s.cfg.rebuild with
  | none => s
  | some _ =>
    let c := rebuildCondition s.plu place result bs
    let s := issueScan b (tallySlab place.segment c (classifySlab place c bs s))
    if (s.cfg.rebuild.map (·.classified)).getD 0 = Config.slabsPerSegment * s.segmentsInUse then catalogJudgement b s
    else s

/-! ## Start -/

/-- The rebuild as Start begins it (R155). -/
def freshRebuild : Rebuild := ⟨.scan, Vector.replicate 4 0, 0, [], none, none, [], [], 0⟩

/-- What Start empties and sets, and phase 1 begun (R155). The S-class settings have been applied. With every
bank idle and no segment CONDEMNED no bank erase flag is set (R143; DEDUCED, log 32). -/
def beginRebuild (s : State) : State :=
  beginScan { s with
    dix.index := []
    plu := resetPlu
    rcu := { s.rcu with
      buffers := Vector.replicate 64 ⟨[], 0⟩
      catalog := []
      nextRecipe := none
      releaseQueue := []
      walk := none }
    rcl := { s.rcl with candidates := [], eraseFlags := Vector.replicate 4 false }
    cfg := { s.cfg with
      mode := .rebuilding
      result := .inProgress
      counters := zeroRebuildCounters
      rebuild := some freshRebuild } }

end Sys2Proof.Machine
end

