-- ==== Sys2Proof/Machine/Completions.lean ====
section
/-! DEFINITION. The completions of the banks: programs, reads and erases (chapters 4 and 5). -/

namespace Sys2Proof.Machine

/-! ## Programs -/

/-- The sequence floor after a program of a sequence has completed OK (R77). -/
def floorAfter (old : Option Nat) (seq : Nat) : Option Nat := highest old seq

/-- PLU's part of a program completion OK (R65, R74, R76, R77, R144): the image stands on the store, the
buffer is FREE, the floor moves, segments are judged, streams commit, and placement available is
announced. (log 10) -/
def programOk (seq : Nat) (place : Place) (s : State) : State :=
  let image := (s.plu.bufferOf seq).elim [] bufferImage
  let before := s.plu.floorSegment
  let s := { s with
    store := writeSlab s.store place image
    plu := { s.plu.freeBuffer seq with floor := floorAfter s.plu.floor seq } }
  let s := judgeSegment place.segment s
  let s := match before with
    | some g => if s.plu.floorSegment = some g then s else judgeSegment g s
    | none => s
  placementAvailable (commitDurable s)

/-- A program completion FAIL: the bank's fault is recorded, the failed slab is left holding what the
manual does not say, and PLU retargets (R78, R86, R95, R97). -/
def programFail (b : Fin 4) (seq : Nat) (place : Place) (s : State) : State :=
  let s := recordFault b .program s
  programFailed b seq place { s with
    store := writeSlab s.store place (afterFailedProgram place s.draws)
    draws := s.draws + 1 }

/-- PROGRAM_COMPLETE (R86): the program that a bank runs completes. -/
def execProgramComplete (b : Fin 4) (result : OpResult) (s : State) : Out :=
  match (s.bank b).running with
  | some (.program seq place) =>
    let t := match result with
      | .ok => programOk seq place s
      | .fail => programFail b seq place s
    act (stoppingCheck (finishBank b t))
  | _ => absent .runningProgram

/-! ## Reads -/

/-- A read completes at its bank: a FAIL is recorded, the completion is passed to its requester with the
bytes as the store holds them, and the bank chooses (R87, R89, R97). -/
def readCompletes (b : Fin 4) (result : OpResult) (j : ReadJob) (pass : List Byte → State → State) (s : State) : Out :=
  let t := match result with
    | .ok => s
    | .fail => recordFault b .read s
  act (stoppingCheck (finishBank b (pass (readSlabRun s.store j.place j.offset j.length) t)))

/-- VERIFY_READ_COMPLETE (R52, R55, R56). -/
def execVerifyReadComplete (b : Fin 4) (result : OpResult) (s : State) : Out :=
  match (s.bank b).running with
  | some (.read ⟨.verify i ticket, p, o, n⟩) =>
    readCompletes b result ⟨.verify i ticket, p, o, n⟩ (verifyReadDone i ticket result) s
  | _ => absent .runningRead

/-- WALK_BLOCK_READ_COMPLETE (R113, R114, R116). -/
def execWalkBlockReadComplete (b : Fin 4) (result : OpResult) (s : State) : Out :=
  match (s.bank b).running with
  | some (.read ⟨.walk, p, o, n⟩) => readCompletes b result ⟨.walk, p, o, n⟩ (walkReadDone result) s
  | _ => absent .runningRead

/-- RESTORE_READ_COMPLETE (R123, R124, R185). -/
def execRestoreReadComplete (b : Fin 4) (result : OpResult) (s : State) : Out :=
  match (s.bank b).running with
  | some (.read ⟨.restore i, p, o, n⟩) => readCompletes b result ⟨.restore i, p, o, n⟩ (restoreReadDone i result) s
  | _ => absent .runningRead

/-- SCAN_READ_COMPLETE (R156). -/
def execScanReadComplete (b : Fin 4) (result : OpResult) (s : State) : Out :=
  match (s.bank b).running with
  | some (.read ⟨.scan, p, o, n⟩) => readCompletes b result ⟨.scan, p, o, n⟩ (scanReadDone b p result) s
  | _ => absent .runningRead

/-- RECOUNT_READ_COMPLETE (R163). -/
def execRecountReadComplete (b : Fin 4) (result : OpResult) (s : State) : Out :=
  match (s.bank b).running with
  | some (.read ⟨.recount number k, p, o, n⟩) =>
    readCompletes b result ⟨.recount number k, p, o, n⟩ (recountReadDone b number k result) s
  | _ => absent .runningRead

/-! ## Erases -/

/-- PLU's part of an erase completion OK: the segment is FREE, and serves the retarget wait list (R74, R80, R96). -/
def eraseOk (segment : Nat) (s : State) : State :=
  serveWaitList segment { s with
    store := eraseSegment s.store segment
    plu.segments := assocSet s.plu.segments segment .free }

/-- An erase completion FAIL: the fault is recorded, STORE_FAULT raised, the segment RETIRED, and its slabs
left in any mix of conditions (R96, R97). -/
def eraseFail (b : Fin 4) (segment : Nat) (s : State) : State :=
  let s := recordFault b .erase s
  raise (deviceNotice .storeFault) { s with
    store := cutErase s.store segment s.draws
    draws := s.draws + Config.slabsPerSegment
    plu.segments := assocSet s.plu.segments segment .retired }

/-- ERASE_COMPLETE (R88, R96, R151, R152): the segment becomes FREE or RETIRED, the bank's next CONDEMNED
segment is given to it, placement available is announced after an OK, and RCL receives the report.
(DEDUCED, log 24) -/
def execEraseComplete (b : Fin 4) (result : OpResult) (s : State) : Out :=
  match (s.bank b).running with
  | some (.erase segment) =>
    let t := s.withBank b { s.bank b with held := none }
    let t := match result with
      | .ok => placementAvailable (giveErase b (eraseOk segment t))
      | .fail => giveErase b (eraseFail b segment t)
    act (stoppingCheck (finishBank b (eraseReport b result t)))
  | _ => absent .runningErase

end Sys2Proof.Machine
end

