-- ==== Sys2Proof/Machine/Modes.lean ====
section
/-! DEFINITION. Modes, resets and lines: Identify, Start, Stop, Reset, RST#, power and CUSTODY (chapters 11
and 12). -/

namespace Sys2Proof.Machine

/-! ## Identify, Start, Stop -/

/-- ASCII text padded with 00h to 16 bytes (R187). -/
def padText (codes : List Nat) : List Byte :=
  codes.map (BitVec.ofNat 8) ++ zeros (16 - codes.length)

/-- The 46 bytes of Identify (R187). -/
def identifyBody (installed : Nat) (m : Mode) : List Byte :=
  padText [0x50, 0x61, 0x6A, 0x6D, 0x6F, 0x72, 0x61] ++
  padText [0x50, 0x44, 0x2D, 0x38, 0x31, 0x36] ++
  beBytes 1 1 ++ beBytes 2 installed ++ beBytes 1 4 ++ beBytes 1 64 ++ beBytes 4 8388608 ++
  beBytes 2 4096 ++ beBytes 2 1024 ++ beBytes 1 m.code

/-- IDENTIFY (R187). -/
def execIdentify (f : Frame) (s : State) : Out :=
  request 0x01#8 (.identify f) f (fun t => (t, ⟨.ok, identifyBody t.cfg.installed t.cfg.mode⟩)) s

/-- The S-class settings, 23 and 24, take their staged values (R191). -/
def applyStartSettings (s : State) : State :=
  { s with cfg.inForce := (s.cfg.inForce.set 23 s.cfg.staged[23]).set 24 s.cfg.staged[24] }

/-- Start as CFG takes it (R191). -/
def takeStart (s : State) : State × Reply :=
  if s.cfg.mode = .standby then
    if s.banksIdle then (beginRebuild (applyStartSettings s), plain .ok) else (s, plain .busy)
  else (s, plain .state)

/-- START (R155, R191). -/
def execStart (f : Frame) (s : State) : Out := request 0x02#8 (.start f) f takeStart s

/-- Is a slot FREE or DONE, so that Stop need not wait for it (R192)? -/
def slotAtRest (x : Slot) : Bool := x.state == .free || x.state == .done

/-- The walk and the release queue are abandoned (R116). -/
def abandonWalk (s : State) : State := { s with rcu := { s.rcu with walk := none, releaseQueue := [] } }

/-- Stop as CFG takes it (R192): STOPPING, the walk abandoned, the candidates emptied, the filling slab
flushed, and the end of STOPPING where nothing is left to finish. -/
def takeStop (s : State) : State × Reply :=
  if s.cfg.mode = .operating then
    if s.slots.all slotAtRest then
      let t := abandonWalk { s with cfg.mode := .stopping }
      (stoppingCheck (leaveFilling { t with rcl.candidates := [] }), plain .ok)
    else (s, plain .busy)
  else (s, plain .state)

/-- STOP (R192). -/
def execStop (f : Frame) (s : State) : Out := request 0x03#8 (.stop f) f takeStop s

/-! ## Resets -/

/-- What the store holds of a bank's work that a reset cuts off (R100). -/
def cutBank (s : State) (m : List Host.Cell) (b : Fin 4) : List Host.Cell :=
  let k := s.bank b
  let draw := s.draws + (Config.slabsPerSegment + 1) * b.val
  let m := match k.running with
    | some (.program seq p) => writeSlab m p (afterCutProgram p ((s.plu.bufferOf seq).elim [] bufferImage) draw)
    | _ => m
  match k.held with
  | some e => if e.condition = .waiting then m else cutErase m e.segment (draw + 1)
  | none => m

/-- The store after every bank operation has been cut off (R100). -/
def cutStore (s : State) : List Host.Cell := (List.finRange 4).foldl (cutBank s) s.store

/-- What every reset does (R189 and each block's reset rule). The retention memory and the write in flight
stand (R125, R128), the lines are as they are, and the queue of commands is not the part's. -/
def hardReset (s : State) : State :=
  { slots := Vector.replicate 64 freeSlot
    dge := resetDge
    dix := resetDix
    plu := resetPlu
    stc := resetStc
    rcu := resetRcu
    rtn := ⟨s.rtn.memory, s.rtn.inFlight, false, false, ⟨0, 0, 0, 0⟩⟩
    rcl := resetRcl
    cfg := resetCfg s.lines.strap.count
    rpu := resetRpu
    lif := resetLif
    lines := s.lines
    store := cutStore s
    draws := s.draws + 4 * (Config.slabsPerSegment + 1)
    pending := s.pending }

/-- RESET (R188): the OK reply is queued and LIF stops accepting frames. -/
def execReset (f : Frame) (s : State) : Out :=
  act (deliver (.reset f) f.payload.length (fun t =>
    if wellFormedRequest 0x04#8 f then
      { t with lif := { t.lif with
          tx := t.lif.tx ++ [.reply true true f.tag (replyPayload 0x04#8 (plain .ok))]
          awaiting := true
          resetTaken := true } }
    else sendReply 0x04#8 f.tag (plain .malformed) t) s)

/-- RESET_TAKES_EFFECT (R188): the last byte of the Reset reply has been sent. -/
def execResetTakesEffect (s : State) : Out :=
  if s.lif.wire.any (·.reset) then act (hardReset s) else absent .resetReply

/-- RST_ASSERT (R189): the part is held in reset. Asserted already, the line has no edge. (DEDUCED, log 15) -/
def execRstAssert (s : State) : Out :=
  if s.lines.rst then act s else act { hardReset s with lines.rst := true }

/-- RST_RELEASE (R128, R189): the part stands in its reset state, and a write that completed meanwhile is
counted and reported. (log 15) -/
def execRstRelease (s : State) : Out :=
  if s.lines.rst then
    let t := { s with lines.rst := false }
    if t.rtn.reportOwed then act (reportWrite { t with rtn.reportOwed := false }) else act t
  else act s

/-- POWER_ON (R128, R189): it acts as an assertion of RST# that ends when supply is stable; no write is in
flight. (log 15) -/
def execPowerOn (s : State) : Out :=
  act { hardReset s with lines.supply := true, rtn.inFlight := none }

/-- POWER_LOSS (R100, R128): all work ends, and a retention write in flight is lost. (log 15) -/
def execPowerLoss (s : State) : Out :=
  act { hardReset s with lines.supply := false, rtn.inFlight := none }

/-- CUSTODY_CHANGE (R139). -/
def execCustodyChange (asserted : Bool) (s : State) : Out := act { s with lines.custody := asserted }

end Sys2Proof.Machine
end

