-- ==== Sys2Proof/Machine/Settings.lean ====
section
/-! DEFINITION. Settings and profiles: Write Setting and Read Settings (chapter 12). -/

namespace Sys2Proof.Machine

/-- The classes of settings (R194, R195). -/
inductive SettingClass where
  | profile
  | immediate
  | start
  deriving DecidableEq, Repr

/-- The class of a setting (R194). -/
def settingClass (n : Nat) : SettingClass :=
  if n < 20 then .profile else if n = 23 ∨ n = 24 then .start else .immediate

/-- A value clamped into a range. -/
def clamp (lo hi v : Nat) : Nat := Nat.max lo (Nat.min hi v)

/-- A divisor as written: clamped to 4 to 65,536 and rounded down to a power of two (R197). -/
def clampDivisor (v : Nat) : Nat := 2 ^ Nat.log2 (clamp 4 65536 v)

/-- A written value clamped into its setting's range (R194, R197). -/
def clampSetting (installed n v : Nat) : Nat :=
  if n < 20 then (if n % 5 < 3 then clamp 64 65536 v else clampDivisor v)
  else if n = 22 then clamp 0 1024 v
  else if n = 23 then clamp 0 64 v
  else if n = 24 then clamp 64 installed v
  else clamp 0 1 v

/-- A profile normalised at its publication: TGT raised to MIN, then MAX to TGT (R197). -/
def normalise (p : Profile) : Profile :=
  let tgt := Nat.max p.tgt p.min
  { p with tgt := tgt, max := Nat.max p.max tgt }

/-- The five values of profile `p` in a table of settings (R194). -/
def profileIn (v : Vector Nat 26) (p : Fin 4) : Profile :=
  ⟨v[5 * p.val], v[5 * p.val + 1], v[5 * p.val + 2], v[5 * p.val + 3], v[5 * p.val + 4]⟩

/-- A table of settings with the five values of profile `p` replaced. -/
def putProfile (v : Vector Nat 26) (p : Fin 4) (x : Profile) : Vector Nat 26 :=
  ((((v.set (5 * p.val) x.min).set (5 * p.val + 1) x.tgt).set (5 * p.val + 2) x.max).set (5 * p.val + 3) x.d1).set
    (5 * p.val + 4) x.d2

/-- The publication of one profile: its staged values are copied in force and normalised (R197). -/
def publish (p : Fin 4) (s : State) : State :=
  { s with cfg.inForce := putProfile s.cfg.inForce p (normalise (profileIn s.cfg.staged p)) }

/-- The publication of all four profiles in one action (R197). -/
def publishAll (s : State) : State := (List.finRange 4).foldl (fun t p => publish p t) s

/-- What a write of an existing setting does once its value is clamped (R195, R146, R197). -/
def writeSetting (n : Fin 26) (v : Nat) (s : State) : State :=
  let s := { s with cfg.staged := s.cfg.staged.set n v }
  match settingClass n with
  | .start => s
  | .profile => if s.setting 25 = 0 then publish ⟨n.val / 5 % 4, Nat.mod_lt _ (by decide)⟩ s else s
  | .immediate =>
    let s := { s with cfg.inForce := s.cfg.inForce.set n v }
    if n = 21 ∧ v = 1 then reclaimPass s
    else if n = 25 ∧ v = 0 then publishAll s
    else s

/-- Write Setting as CFG takes it (R195). -/
def takeWriteSetting (payload : List Byte) (s : State) : State × Reply :=
  let n := field payload 0 1
  if h : n < 26 then
    let v := clampSetting s.cfg.installed n (field payload 1 4)
    (writeSetting ⟨n, h⟩ v s, ⟨.ok, beBytes 4 v⟩)
  else (s, plain .range)

/-- WRITE_SETTING (R195). -/
def execWriteSetting (f : Frame) (s : State) : Out :=
  request 0x05#8 (.writeSetting f) f (takeWriteSetting f.payload) s

/-- The value that a setting number reads: 0 for the numbers that do not exist (R198). -/
def settingValue (v : Vector Nat 26) (n : Nat) : Nat := if h : n < 26 then v[n] else 0

/-- Read Settings as CFG takes it (R198). -/
def takeReadSettings (payload : List Byte) (s : State) : State × Reply :=
  let first := field payload 0 1
  let count := field payload 1 1
  let selector := field payload 2 1
  if 63 < first ∨ count = 0 ∨ 64 < count ∨ 1 < selector then (s, plain .range)
  else
    let n := Nat.min count (64 - first)
    let table := if selector = 0 then s.cfg.staged else s.cfg.inForce
    (s, ⟨.ok, beBytes 1 first ++ beBytes 1 n ++
      (List.range n).flatMap (fun k => beBytes 4 (settingValue table (first + k)))⟩)

/-- READ_SETTINGS (R198). -/
def execReadSettings (f : Frame) (s : State) : Out :=
  request 0x06#8 (.readSettings f) f (takeReadSettings f.payload) s

end Sys2Proof.Machine
end

