-- ==== Sys2Proof/Machine/StreamRequests.lean ====
section
/-! DEFINITION. The stream requests: Open Stream, Stream Data, Close Stream, Abort Stream, Retire Stream
and Set Stream Option (chapter 1). -/

namespace Sys2Proof.Machine

/-- The slot that a slot byte names, 0 to 63 (R3). -/
def slotOf (n : Nat) : Option (Fin 64) := if h : n < 64 then some ⟨n, h⟩ else none

/-- Are stream requests other than Open Stream judged by the slot's state in this mode (R3)? -/
def streamMode (m : Mode) : Bool := m == .operating || m == .stopping

/-- A request on a slot other than Open Stream: RANGE for a slot above 63, NOT_READY by mode, and otherwise
the owner's own rule (R3). -/
def onSlot (payload : List Byte) (own : Fin 64 → State → State × Reply) (s : State) : State × Reply :=
  match slotOf (field payload 0 1) with
  | none => (s, plain .range)
  | some i => if streamMode s.cfg.mode then own i s else (s, plain .notReady)

/-! ## Open Stream -/

/-- The fields of Open Stream (11.6). -/
structure OpenFields where
  profile : Nat
  branch : Nat
  retention : Nat
  declared : Nat
  label : List Byte
  deriving DecidableEq, Repr

/-- Open Stream's fields after the slot (11.6). -/
def openFields (payload : List Byte) : OpenFields where
  profile := field payload 1 1
  branch := field payload 2 2
  retention := field payload 4 2
  declared := field payload 6 6
  label := (payload.drop 12).take 16

/-- Can the Recipe Unit not give out a recipe: 4,096 entries, or recipe numbers used up (R4, R107)? -/
def catalogFull (s : State) : Bool :=
  Config.catalogCapacity ≤ s.rcu.catalog.length ||
    !(s.rcu.nextRecipe.any (fun n => decide (n < Config.recipeNumbersUsedUp)))

/-- The slot as Open Stream fills it (R5). -/
def openedSlot (o : OpenFields) (profile : Profile) (day number : Nat) : Slot :=
  let days := Nat.min o.retention 3650
  { freeSlot with
    state := .opened
    phase := some .scanning
    branch := o.branch
    label := o.label
    profileNo := o.profile
    profile := profile
    openDay := day
    retentionDays := days
    expiryDay := Nat.min (day + days) Config.dayMax
    declared := o.declared
    recipe := number }

/-- The catalog entry that Open Stream makes (R5, R106). -/
def openedRecipe (x : Slot) : Recipe where
  branch := x.branch
  label := x.label
  profileNo := x.profileNo
  openDay := x.openDay
  retentionDays := x.retentionDays
  expiryDay := x.expiryDay
  byteTotal := 0
  recordCount := 0
  blockCount := 0
  closeReason := none
  blocks := []
  head := none
  state := .opened
  job := none
  damaged := false

/-- The body of Open Stream's OK reply (11.6). -/
def openBody (x : Slot) : List Byte :=
  beBytes 4 x.recipe ++ beBytes 2 x.expiryDay ++ beBytes 4 x.profile.min ++ beBytes 4 x.profile.tgt ++
    beBytes 4 x.profile.max ++ beBytes 4 x.profile.d1 ++ beBytes 4 x.profile.d2

/-- Open Stream once every check of R4 has passed (R5). -/
def openStream (i : Fin 64) (o : OpenFields) (profile : Fin 4) (number : Nat) (s : State) : State × Reply :=
  let s := if (s.slot i).state = .done then retireSlot i s else s
  let x := openedSlot o (profileIn s.cfg.inForce profile) s.rtn.memory.day number
  let s := { s with rcu := { s.rcu with
      catalog := assocSet s.rcu.catalog number (openedRecipe x)
      nextRecipe := some (number + 1)
      buffers := s.rcu.buffers.set i ⟨[], 0⟩ } }
  (s.withSlot i x, ⟨.ok, openBody x⟩)

/-- Open Stream as SIN takes it: the checks of R4 in order. -/
def takeOpenStream (payload : List Byte) (s : State) : State × Reply :=
  let o := openFields payload
  match slotOf (field payload 0 1) with
  | none => (s, plain .range)
  | some i =>
    if s.cfg.mode ≠ .operating then (s, plain .notReady)
    else if !slotAtRest (s.slot i) then (s, plain .busy)
    else if h : o.profile < 4 then
      if Config.branchCount ≤ o.branch ∨ o.retention = 0 then (s, plain .range)
      else if catalogFull s then (s, plain .catalogFull)
      else openStream i o ⟨o.profile, h⟩ (s.rcu.nextRecipe.getD 0) s
    else (s, plain .range)

/-- OPEN_STREAM (R3, R4, R5). -/
def execOpenStream (f : Frame) (s : State) : Out :=
  request 0x07#8 (.openStream f) f (takeOpenStream f.payload) s

/-! ## Stream Data -/

/-- The body of Stream Data's OK and WINDOW replies: bytes appended, and the free intake space (11.6). -/
def dataBody (appended : Nat) (x : Slot) : List Byte := beBytes 2 appended ++ beBytes 4 (intakeFree x)

/-- The bytes of a taken payload that a stream keeps (R6, R7). -/
def keptBytes (x : Slot) (data : List Byte) : List Byte :=
  if x.declared = 0 then data else data.take (x.declared - x.accepted)

/-- A slot after a Stream Data that fits (R6, R7). -/
def takeData (data : List Byte) (x : Slot) : Slot :=
  let kept := keptBytes x data
  let accepted := x.accepted + kept.length
  let y := { x with
    intake := x.intake ++ kept
    accepted := accepted
    counters := { x.counters with
      received := countBy x.counters.received data.length
      overrun := countBy x.counters.overrun (data.length - kept.length) } }
  if x.declared ≠ 0 ∧ x.declared ≤ accepted then { y with state := .draining, closeReason := some .count } else y

/-- Stream Data on a slot (R6, R7). -/
def streamData (data : List Byte) (i : Fin 64) (s : State) : State × Reply :=
  let x := s.slot i
  if x.state ≠ .opened then (s, plain .state)
  else if intakeFree x < data.length then (s, ⟨.window, dataBody 0 x⟩)
  else
    let y := takeData data x
    (s.withSlot i y, ⟨.ok, dataBody (keptBytes x data).length y⟩)

/-- STREAM_DATA (R3, R6, R7). -/
def execStreamData (f : Frame) (s : State) : Out :=
  request 0x08#8 (.streamData f) f (onSlot f.payload (streamData (f.payload.drop 1))) s

/-! ## Close, Abort, Retire, Set Stream Option -/

/-- Close Stream on a slot (R18). -/
def closeStream (i : Fin 64) (s : State) : State × Reply :=
  let x := s.slot i
  match x.state with
  | .opened => (drainStep i (s.withSlot i { x with state := .draining, closeReason := some .ended }), plain .ok)
  | .draining => (s, plain .ok)
  | .committing => (s, plain .ok)
  | .free => (s, plain .state)
  | .done => (s, plain .state)

/-- CLOSE_STREAM (R18). -/
def execCloseStream (f : Frame) (s : State) : Out :=
  request 0x09#8 (.closeStream f) f (onSlot f.payload closeStream) s

/-- Abort Stream on a slot (R23). -/
def abortStream (i : Fin 64) (s : State) : State × Reply :=
  match (s.slot i).state with
  | .opened => (abortSlot i s, plain .ok)
  | .draining => (abortSlot i s, plain .ok)
  | .committing => (s, plain .state)
  | .free => (s, plain .state)
  | .done => (s, plain .state)

/-- ABORT_STREAM (R23, R110). -/
def execAbortStream (f : Frame) (s : State) : Out :=
  request 0x0A#8 (.abortStream f) f (onSlot f.payload abortStream) s

/-- Retire Stream on a slot (R25). -/
def retireStream (i : Fin 64) (s : State) : State × Reply :=
  if (s.slot i).state = .done then (retireSlot i s, plain .ok) else (s, plain .state)

/-- RETIRE_STREAM (R25, R175). -/
def execRetireStream (f : Frame) (s : State) : Out :=
  request 0x0B#8 (.retireStream f) f (onSlot f.payload retireStream) s

/-- A slot with one option set, or none where the option or its value is outside the table (R26). -/
def setOption (option value : Nat) (x : Slot) : Option Slot :=
  match option with
  | 0 =>
    match value with
    | 0 => some { x with watchOn := false }
    | 1 => some { x with watchOn := true }
    | _ => none
  | 1 => if 1 ≤ value ∧ value ≤ 256 then some { x with watchLevel := value } else none
  | 2 =>
    match value with
    | 0 => some { x with verifyOverride := .default }
    | 1 => some { x with verifyOverride := .on }
    | 2 => some { x with verifyOverride := .off }
    | _ => none
  | _ => none

/-- Set Stream Option on a slot (R26). The state is judged before the option (log 11). -/
def setStreamOption (payload : List Byte) (i : Fin 64) (s : State) : State × Reply :=
  let x := s.slot i
  if slotAtRest x then (s, plain .state)
  else
    match setOption (field payload 1 1) (field payload 2 2) x with
    | some y => (s.withSlot i y, ⟨.ok, beBytes 2 (field payload 2 2)⟩)
    | none => (s, plain .range)

/-- SET_STREAM_OPTION (R26). -/
def execSetStreamOption (f : Frame) (s : State) : Out :=
  request 0x0C#8 (.setStreamOption f) f (onSlot f.payload (setStreamOption f.payload)) s

end Sys2Proof.Machine
end

