-- ==== Sys2Proof/Machine/Report.lean ====
section
/-! DEFINITION. The Report Unit's requests: Take Notice, Set Notice Mask, Take Snapshot and Read Snapshot
(chapter 10). -/

namespace Sys2Proof.Machine

/-! ## Take Notice -/

/-- The last fault as bank and kind, FFh and 0 for none (R174, 11.6). -/
def lastFaultBytes (s : State) : List Byte :=
  match s.stc.lastFault with
  | some (b, k) => beBytes 1 b.val ++ beBytes 1 k.code
  | none => beBytes 1 0xFF ++ beBytes 1 0

/-- The detail of STREAM_DONE: the slot's summary and its eleven counters (R174, 11.6). -/
def streamDoneDetail (x : Slot) : List Byte :=
  (match x.summary with
    | some m => beBytes 1 (outcomeCode (some m.outcome)) ++ beBytes 1 (closeCode m.reason) ++ beBytes 4 m.recipe ++
        beBytes 6 m.bytesChunked ++ beBytes 4 m.records ++ beBytes 6 m.newChunks ++ beBytes 6 m.dupChunks
    | none => zeros 28) ++ counterBytes x.counters.values

/-- A freeze flag as a byte. -/
def flagByte (b : Bool) : List Byte := beBytes 1 b.toNat

/-- The detail of a notice, read from the state of the block concerned as it is when the notice is taken
(R174, 11.6). -/
def noticeDetail (n : Notice) (s : State) : List Byte :=
  let x := s.slot (n.slot.getD 0)
  match n.kind with
  | .storeFault => lastFaultBytes s
  | .storeFull => beBytes 2 s.plu.freeSegments.length ++ beBytes 2 s.freeSegmentCount ++ beBytes 1 s.plu.waitList.length
  | .streamStalled => beBytes 1 x.state.code ++ beBytes 1 (phaseCode x.phase) ++ beBytes 1 (itemCode x.item)
  | .streamDone => streamDoneDetail x
  | .collision => beBytes 6 s.dix.counters.collisions
  | .storeLow => beBytes 2 s.freeSegmentCount ++ beBytes 2 (s.setting 22)
  | .streamSpace => beBytes 1 x.state.code ++ beBytes 4 (intakeFree x)
  | .rebuildDone => beBytes 1 s.cfg.result.code ++ beBytes 6 s.cfg.counters.recipesLive ++ beBytes 6 s.cfg.counters.recipesDamaged
  | .releasesIdle => beBytes 6 s.rcu.counters.released ++ beBytes 6 s.rcu.counters.abortJobs ++ beBytes 2 s.rcu.releaseQueue.length
  | .holdWritten => beBytes 2 s.rtn.memory.day ++ flagByte s.rtn.memory.freeze ++ beBytes 1 (retentionWriteCode s.rtn.inFlight)
  | .linkError => beBytes 6 s.lif.linkErrors

/-- The body of Take Notice for a pair, and whether more are pending (R173, 11.6). -/
def noticeBody (n : Notice) (more : Bool) (s : State) : List Byte :=
  let detail := noticeDetail n s
  beBytes 1 n.kind.rank ++ beBytes 1 (n.slot.elim 0xFF Fin.val) ++ flagByte more ++ beBytes 2 detail.length ++ detail

/-- Take Notice as RPU takes it (R173): the lowest-ranked pair leaves the set. -/
def takeTakeNotice (s : State) : State × Reply :=
  match s.rpu.notices with
  | [] => (s, ⟨.ok, zeros 5⟩)
  | n :: rest => ({ s with rpu.notices := rest }, ⟨.ok, noticeBody n (!rest.isEmpty) s⟩)

/-- TAKE_NOTICE (R173, R174). -/
def execTakeNotice (f : Frame) (s : State) : Out := request 0x0D#8 (.takeNotice f) f takeTakeNotice s

/-- Set Notice Mask as RPU takes it (R172). -/
def takeSetNoticeMask (payload : List Byte) (s : State) : State × Reply :=
  let v := field payload 0 2
  if 2048 ≤ v then (s, plain .range)
  else
    let mask := BitVec.ofNat 11 v
    let kept := s.rpu.notices.filter (fun n => kindEnabled mask n.kind)
    ({ s with rpu := { s.rpu with mask := mask, notices := kept } },
      ⟨.ok, beBytes 2 v ++ beBytes 1 (s.rpu.notices.length - kept.length)⟩)

/-- SET_NOTICE_MASK (R172). -/
def execSetNoticeMask (f : Frame) (s : State) : Out :=
  request 0x0E#8 (.setNoticeMask f) f (takeSetNoticeMask f.payload) s

/-! ## Snapshots -/

/-- What a slot latch captures (R177). -/
def captureSlot (s : State) (i : Fin 64) : SlotCapture :=
  let x := s.slot i
  ⟨s.cfg.mode, x.state, x.phase, x.outcome, x.closeReason, x.item, x.records, intakeFree x, x.counters⟩

/-- The 48 device counters in the order of R179, the STC counts bank by bank (11.6). -/
def deviceCounters (s : State) : List Nat :=
  let d := s.dix.counters
  let u := s.rcu.counters
  let t := s.rtn.counters
  let c := s.rcl.counters
  let r := s.cfg.counters
  [d.lookups, d.hits, d.misses, d.staleHits, d.evictions, d.unindexed, d.collisions, d.verifyFaults,
   u.committed, u.released, u.abortJobs, u.walksReturned, u.walkReadFaults, u.leaked,
   t.writes, t.scans, t.expired, t.custodyRefusals,
   c.made, c.refused, c.creditsSpent, c.erasesOk, c.erasesFailed,
   r.slabsValid, r.slabsTorn, r.slabsBlank, r.segmentsClosed, r.segmentsFree, r.segmentsQueued,
   r.leftOut, r.headsFound, r.headsExpired, r.headsSuperseded, r.recipesLive, r.recipesDamaged] ++
  s.stc.banks.toList.flatMap (fun b => [b.faults.program, b.faults.read, b.faults.erase]) ++
  [s.lif.linkErrors]

/-- What the device latch captures (R177). -/
def captureDevice (s : State) : DeviceCapture :=
  ⟨s.cfg.mode, s.cfg.result, s.rpu.notices.length, deviceCounters s⟩

/-- Fill a slot's latch where it is empty (R178). -/
def latchSlot (i : Fin 64) (s : State) : State :=
  match s.rpu.slotLatches[i] with
  | some _ => s
  | none => { s with rpu.slotLatches := s.rpu.slotLatches.set i (some (captureSlot s i)) }

/-- Fill the device latch where it is empty (R178). -/
def latchDevice (s : State) : State :=
  match s.rpu.deviceLatch with
  | some _ => s
  | none => { s with rpu.deviceLatch := some (captureDevice s) }

/-- The word that Take Snapshot answers for a latch: 1 captured, 2 kept (11.6). -/
def latchWord {α : Type} (latch : Option α) : List Byte := if latch.isSome then beBytes 1 2 else beBytes 1 1

/-- The slots that a Take Snapshot names, once each and in ascending order (R178). -/
def namedSlots (bytes : List Byte) : List (Fin 64) :=
  allSlots.filter (fun i => bytes.any (fun b => b.toNat == i.val))

/-- Take Snapshot as RPU takes it (R178). -/
def takeTakeSnapshot (payload : List Byte) (s : State) : State × Reply :=
  let device := field payload 0 1
  let named := payload.drop 1
  if 1 < device ∨ named.any (fun b => decide (63 < b.toNat)) then (s, plain .range)
  else
    let slots := namedSlots named
    let words := slots.flatMap (fun i => beBytes 1 i.val ++ latchWord s.rpu.slotLatches[i])
    let t := slots.foldl (fun u i => latchSlot i u) s
    if device = 1 then
      (latchDevice t, ⟨.ok, beBytes 1 (slots.length + 1) ++ words ++ beBytes 1 0xFF ++ latchWord s.rpu.deviceLatch⟩)
    else (t, ⟨.ok, beBytes 1 slots.length ++ words⟩)

/-- TAKE_SNAPSHOT (R178). -/
def execTakeSnapshot (f : Frame) (s : State) : Out :=
  request 0x0F#8 (.takeSnapshot f) f (takeTakeSnapshot f.payload) s

/-- The body of Read Snapshot of a slot (11.6). -/
def slotCaptureBody (latched : Bool) (i : Fin 64) (c : SlotCapture) : List Byte :=
  beBytes 1 (if latched then 1 else 2) ++ beBytes 1 i.val ++ beBytes 1 c.mode.code ++ beBytes 1 c.state.code ++
    beBytes 1 (phaseCode c.phase) ++ beBytes 1 (outcomeCode c.outcome) ++ beBytes 1 (closeCode c.closeReason) ++
    beBytes 1 (itemCode c.item) ++ beBytes 4 c.records ++ beBytes 4 c.freeSpace ++ counterBytes c.counters.values

/-- The body of Read Snapshot of the device (11.6). -/
def deviceCaptureBody (latched : Bool) (c : DeviceCapture) : List Byte :=
  beBytes 1 (if latched then 1 else 2) ++ beBytes 1 0xFF ++ beBytes 1 c.mode.code ++ beBytes 1 c.result.code ++
    beBytes 1 c.pairs ++ counterBytes c.counters

/-- Read Snapshot as RPU takes it (R179): a full latch is read and emptied, an empty one read live. -/
def takeReadSnapshot (payload : List Byte) (s : State) : State × Reply :=
  let n := field payload 0 1
  if n = 0xFF then
    match s.rpu.deviceLatch with
    | some c => ({ s with rpu.deviceLatch := none }, ⟨.ok, deviceCaptureBody true c⟩)
    | none => (s, ⟨.ok, deviceCaptureBody false (captureDevice s)⟩)
  else
    match slotOf n with
    | none => (s, plain .range)
    | some i =>
      match s.rpu.slotLatches[i] with
      | some c => ({ s with rpu.slotLatches := s.rpu.slotLatches.set i none }, ⟨.ok, slotCaptureBody true i c⟩)
      | none => (s, ⟨.ok, slotCaptureBody false i (captureSlot s i)⟩)

/-- READ_SNAPSHOT (R179). -/
def execReadSnapshot (f : Frame) (s : State) : Out :=
  request 0x10#8 (.readSnapshot f) f (takeReadSnapshot f.payload) s

end Sys2Proof.Machine
end

