-- ==== Sys2Proof/Machine/RetentionRequests.lean ====
section
/-! DEFINITION. The retention requests: Set Day, Read Retention, Set Hold, Clear Hold, Set Freeze and Clear
Freeze (chapter 7). -/

namespace Sys2Proof.Machine

/-- A retention write starts (R126). -/
def startWrite (w : RetentionWrite) (s : State) : State := { s with rtn.inFlight := some w }

/-- A refusal for want of CUSTODY is counted (R138, R140, R142). -/
def refuseCustody (s : State) : State × Reply :=
  let n := s.rtn.counters
  ({ s with rtn.counters := { n with custodyRefusals := countBy n.custodyRefusals 1 } }, plain .custody)

/-- The day that a Set Day writes: at most 7 ahead of the day in force (R129). -/
def dayWritten (day d : Nat) : Nat := Nat.min d (day + 7)

/-- Set Day as RTN takes it (R129). -/
def takeSetDay (payload : List Byte) (s : State) : State × Reply :=
  let d := field payload 0 4
  let day := s.rtn.memory.day
  if Config.dayMax < d then (s, plain .range)
  else if s.rtn.inFlight.isSome then (s, plain .busy)
  else if d < day then (s, plain .backward)
  else if d = day then (s, ⟨.ok, beBytes 1 0 ++ beBytes 2 day⟩)
  else (startWrite (.day (dayWritten day d)) s, ⟨.ok, beBytes 1 1 ++ beBytes 2 (dayWritten day d)⟩)

/-- SET_DAY (R129). -/
def execSetDay (f : Frame) (s : State) : Out := request 0x11#8 (.setDay f) f (takeSetDay f.payload) s

/-- Set Hold as RTN takes it (R136). -/
def takeSetHold (payload : List Byte) (s : State) : State × Reply :=
  let b := field payload 0 2
  if Config.branchCount ≤ b then (s, plain .range)
  else if s.rtn.inFlight.isSome then (s, plain .busy)
  else
    match assocGet s.rtn.memory.holds b with
    | some start => (s, ⟨.ok, beBytes 1 0 ++ beBytes 2 start⟩)
    | none => (startWrite (.hold b s.rtn.memory.day) s, ⟨.ok, beBytes 1 1 ++ beBytes 2 s.rtn.memory.day⟩)

/-- SET_HOLD (R136). -/
def execSetHold (f : Frame) (s : State) : Out := request 0x13#8 (.setHold f) f (takeSetHold f.payload) s

/-- Clear Hold as RTN takes it (R138). -/
def takeClearHold (payload : List Byte) (s : State) : State × Reply :=
  let b := field payload 0 2
  if Config.branchCount ≤ b then (s, plain .range)
  else if s.rtn.inFlight.isSome then (s, plain .busy)
  else if s.rtn.memory.freeze && !s.lines.custody then refuseCustody s
  else if (assocGet s.rtn.memory.holds b).isSome then (startWrite (.unhold b) s, ⟨.ok, beBytes 1 1⟩)
  else (s, ⟨.ok, beBytes 1 0⟩)

/-- CLEAR_HOLD (R138). -/
def execClearHold (f : Frame) (s : State) : Out := request 0x14#8 (.clearHold f) f (takeClearHold f.payload) s

/-- Set Freeze as RTN takes it (R140). -/
def takeSetFreeze (s : State) : State × Reply :=
  if s.rtn.inFlight.isSome then (s, plain .busy)
  else if s.rtn.memory.freeze then (s, ⟨.ok, beBytes 1 0⟩)
  else (startWrite .freeze s, ⟨.ok, beBytes 1 1⟩)

/-- SET_FREEZE (R140). -/
def execSetFreeze (f : Frame) (s : State) : Out := request 0x15#8 (.setFreeze f) f takeSetFreeze s

/-- Clear Freeze as RTN takes it (R140). -/
def takeClearFreeze (s : State) : State × Reply :=
  if s.rtn.inFlight.isSome then (s, plain .busy)
  else if !s.lines.custody then refuseCustody s
  else if s.rtn.memory.freeze then (startWrite .unfreeze s, ⟨.ok, beBytes 1 1⟩)
  else (s, ⟨.ok, beBytes 1 0⟩)

/-- CLEAR_FREEZE (R140). -/
def execClearFreeze (f : Frame) (s : State) : Out := request 0x16#8 (.clearFreeze f) f takeClearFreeze s

/-- The branch and the value of a write in flight, 0 where it carries none (R141, 11.6). (log 12) -/
def writeBytes (w : Option RetentionWrite) : List Byte :=
  match w with
  | some (.day d) => beBytes 2 0 ++ beBytes 2 d
  | some (.hold b start) => beBytes 2 b ++ beBytes 2 start
  | some (.unhold b) => beBytes 2 b ++ beBytes 2 0
  | some .freeze => beBytes 2 0 ++ beBytes 2 1
  | some .unfreeze => beBytes 2 0 ++ beBytes 2 0
  | none => beBytes 2 0 ++ beBytes 2 0

/-- A branch's line in Read Retention: held, start day (11.6). -/
def holdBytes (h : Option Nat) : List Byte :=
  match h with
  | some start => beBytes 1 1 ++ beBytes 2 start
  | none => beBytes 1 0 ++ beBytes 2 0

/-- Read Retention as RTN takes it (R141). -/
def takeReadRetention (payload : List Byte) (s : State) : State × Reply :=
  let first := field payload 0 2
  if Config.branchCount ≤ first then (s, plain .range)
  else
    let n := Nat.min (countOf256 (field payload 2 1)) (Config.branchCount - first)
    let m := s.rtn.memory
    (s, ⟨.ok, beBytes 2 m.day ++ flagByte m.freeze ++ flagByte s.lines.custody ++
      beBytes 1 (retentionWriteCode s.rtn.inFlight) ++ writeBytes s.rtn.inFlight ++ flagByte s.rtn.scanOwed ++
      beBytes 2 first ++ beBytes 2 n ++
      (List.range n).flatMap (fun k => holdBytes (assocGet m.holds (first + k)))⟩)

/-- READ_RETENTION (R141). -/
def execReadRetention (f : Frame) (s : State) : Out :=
  request 0x12#8 (.readRetention f) f (takeReadRetention f.payload) s

end Sys2Proof.Machine
end

