-- ==== Sys2Proof/Machine/RecipeRequests.lean ====
section
/-! DEFINITION. The recipe and restore requests: List Recipes, Read Recipe Head, Read Recipe and Read Chunk
(chapter 6). -/

namespace Sys2Proof.Machine

/-- The most records that one Read Recipe returns (R122). -/
abbrev recordsPerReply : Nat := 186

/-- The most summaries that one List Recipes returns (R121). -/
abbrev summariesPerReply : Nat := 32

/-- A summary of List Recipes (R121, 11.6). -/
def summaryBytes (e : Nat × Recipe) : List Byte :=
  let r := e.2
  beBytes 4 e.1 ++ beBytes 2 r.branch ++ beBytes 1 r.state.code ++ beBytes 2 r.expiryDay ++
    beBytes 4 r.recordCount ++ beBytes 6 r.byteTotal ++ beBytes 1 (closeCode r.closeReason) ++ flagByte r.damaged

/-- The entries that a List Recipes asks for: from a number on, of one branch or of all (R121). -/
def matchingRecipes (start selector : Nat) (catalog : Assoc Recipe) : List (Nat × Recipe) :=
  catalog.filter (fun e => decide (start ≤ e.1) && (selector == 0xFFFF || e.2.branch == selector))

/-- List Recipes as RCU takes it (R119, R121). -/
def takeListRecipes (payload : List Byte) (s : State) : State × Reply :=
  let selector := field payload 4 2
  if s.cfg.mode ≠ .operating then (s, plain .notReady)
  else if selector ≠ 0xFFFF ∧ Config.branchCount ≤ selector then (s, plain .range)
  else
    let found := matchingRecipes (field payload 0 4) selector s.rcu.catalog
    let given := found.take summariesPerReply
    (s, ⟨.ok, beBytes 1 given.length ++ flagByte (decide (summariesPerReply < found.length)) ++
      given.flatMap summaryBytes⟩)

/-- LIST_RECIPES (R121). -/
def execListRecipes (f : Frame) (s : State) : Out :=
  request 0x17#8 (.listRecipes f) f (takeListRecipes f.payload) s

/-- A location as present flag, sequence and offset, 0 where there is none (11.6). -/
def headLocationBytes (l : Option Location) : List Byte :=
  match l with
  | some l => beBytes 1 1 ++ beBytes 4 l.seq ++ beBytes 4 l.offset
  | none => beBytes 1 0 ++ beBytes 4 0 ++ beBytes 4 0

/-- The body of Read Recipe Head: every field of the entry (R120, 11.6). -/
def recipeHeadBody (number : Nat) (r : Recipe) : List Byte :=
  beBytes 4 number ++ beBytes 2 r.branch ++ beBytes 1 r.profileNo ++ beBytes 1 (closeCode r.closeReason) ++
    r.label ++ beBytes 2 r.openDay ++ beBytes 2 r.retentionDays ++ beBytes 2 r.expiryDay ++
    beBytes 2 r.blockCount ++ beBytes 4 r.recordCount ++ beBytes 6 r.byteTotal ++ headLocationBytes r.head ++
    beBytes 1 r.state.code ++ beBytes 1 (jobCode r.job) ++ flagByte r.damaged ++ beBytes 2 r.blocks.length ++
    r.blocks.flatMap (fun l => beBytes 4 l.seq ++ beBytes 4 l.offset)

/-- Read Recipe Head as RCU takes it (R119, R120). -/
def takeReadRecipeHead (payload : List Byte) (s : State) : State × Reply :=
  let number := field payload 0 4
  if s.cfg.mode ≠ .operating then (s, plain .notReady)
  else
    match assocGet s.rcu.catalog number with
    | none => (s, plain .gone)
    | some r => (s, ⟨.ok, recipeHeadBody number r⟩)

/-- READ_RECIPE_HEAD (R120). -/
def execReadRecipeHead (f : Frame) (s : State) : Out :=
  request 0x18#8 (.readRecipeHead f) f (takeReadRecipeHead f.payload) s

/-- The count of a Read Recipe, clamped to the recipe, to the block and to 186 (R122). -/
def recordsRead (r : Recipe) (first count : Nat) : Nat :=
  let b := first / Config.blockRecords
  let j := first % Config.blockRecords
  Nat.min (Nat.min (Nat.min count (r.recordCount - first)) (recordsInBlock r b - j)) recordsPerReply

/-- Read Recipe once an entry has been found: checks 2 to 6 of R122 in order, then the read. -/
def readRecipe (tag : BitVec 16) (number first count : Nat) (r : Recipe) (s : State) : State × Option Reply :=
  if r.state = .releasing then (s, some (plain .gone))
  else if r.state = .opened ∨ r.state = .committing then (s, some (plain .state))
  else if r.recordCount ≤ first then (s, some (plain .range))
  else
    match r.blocks[first / Config.blockRecords]? with
    | none => (s, some (plain .gone))
    | some l =>
      if s.plu.mapped l.seq then
        let n := recordsRead r first count
        startRestore tag (.recipe number first n) l.seq
          (l.offset + 64 + 44 * (first % Config.blockRecords)) (44 * n) s
      else (s, some (plain .gone))

/-- Read Recipe as RCU takes it (R119, R122). -/
def takeReadRecipe (tag : BitVec 16) (payload : List Byte) (s : State) : State × Option Reply :=
  let number := field payload 0 4
  if s.cfg.mode ≠ .operating then (s, some (plain .notReady))
  else
    match assocGet s.rcu.catalog number with
    | none => (s, some (plain .gone))
    | some r => readRecipe tag number (field payload 4 4) (countOf256 (field payload 8 1)) r s

/-- READ_RECIPE (R122, R123, R185). -/
def execReadRecipe (f : Frame) (s : State) : Out :=
  restoreRequest 0x19#8 (.readRecipe f) f (takeReadRecipe f.tag f.payload) s

/-- Read Chunk as RCU takes it (R119, R124). -/
def takeReadChunk (tag : BitVec 16) (payload : List Byte) (s : State) : State × Option Reply :=
  let seq := field payload 0 4
  let off := field payload 4 4
  let len := field payload 8 2
  if s.cfg.mode ≠ .operating then (s, some (plain .notReady))
  else if len = 0 ∨ 8192 < len ∨ Config.slabBytes < off + len then (s, some (plain .range))
  else if s.plu.mapped seq then startRestore tag .chunk seq off len s
  else (s, some (plain .gone))

/-- READ_CHUNK (R124, R185). -/
def execReadChunk (f : Frame) (s : State) : Out :=
  restoreRequest 0x1A#8 (.readChunk f) f (takeReadChunk f.tag f.payload) s

end Sys2Proof.Machine
end

