-- ==== Sys2Proof/Machine/StoreRequests.lean ====
section
/-! DEFINITION. The store and reclaim requests: Store Status, Clear Store Faults and Reclaim (chapters 5 and 8). -/

namespace Sys2Proof.Machine

/-- A held erase in Store Status: segment, condition, suspend count (R98, 11.6). -/
def heldEraseBytes (h : Option HeldErase) : List Byte :=
  match h with
  | some e => beBytes 2 e.segment ++ beBytes 1 (eraseConditionCode e.condition) ++ beBytes 1 e.suspends
  | none => beBytes 2 0xFFFF ++ beBytes 1 0 ++ beBytes 1 0

/-- A bank's lines of Store Status (R98, 11.6). -/
def bankBytes (k : Bank) : List Byte :=
  beBytes 1 (bankStateCode k) ++ heldEraseBytes k.held ++ beBytes 1 k.readQueue.length ++
    beBytes 1 k.programQueue.length ++ beBytes 1 (faultFlagsCode k.flags) ++
    counterBytes [k.faults.program, k.faults.read, k.faults.erase]

/-- Is a segment OPEN? -/
def SegState.isOpen : SegState → Bool
  | .opened _ => true
  | _ => false

/-- How many segments stand in a state (R98). -/
def Plu.countSegments (p : Plu) (test : SegState → Bool) : Nat := (p.segments.filter (fun e => test e.2)).length

/-- The body of Store Status (R98, 11.6). -/
def storeStatusBody (s : State) : List Byte :=
  s.stc.banks.toList.flatMap bankBytes ++ lastFaultBytes s ++ beBytes 2 s.cfg.installed ++
    beBytes 2 s.segmentsInUse ++
    beBytes 2 (s.plu.countSegments (· == .free)) ++ beBytes 2 (s.plu.countSegments SegState.isOpen) ++
    beBytes 2 (s.plu.countSegments (· == .closed)) ++ beBytes 2 (s.plu.countSegments (· == .condemned)) ++
    beBytes 2 (s.plu.countSegments (· == .erasing)) ++ beBytes 2 (s.plu.countSegments (· == .retired))

/-- STORE_STATUS (R98). -/
def execStoreStatus (f : Frame) (s : State) : Out :=
  request 0x1B#8 (.storeStatus f) f (fun t => (t, ⟨.ok, storeStatusBody t⟩)) s

/-- A bank with its three fault flags clear (R99). -/
def clearFlags (k : Bank) : Bank := { k with flags := ⟨false, false, false⟩ }

/-- Clear Store Faults as STC takes it (R99): the reply carries the flags as they stood. -/
def takeClearStoreFaults (s : State) : State × Reply :=
  ({ s with stc := ⟨s.stc.banks.map clearFlags, none⟩ },
    ⟨.ok, s.stc.banks.toList.flatMap (fun k => beBytes 1 (faultFlagsCode k.flags))⟩)

/-- CLEAR_STORE_FAULTS (R99). -/
def execClearStoreFaults (f : Frame) (s : State) : Out :=
  request 0x1C#8 (.clearStoreFaults f) f takeClearStoreFaults s

/-- The body of Reclaim's reply (R147, 11.6). -/
def reclaimBody (r : Rcl) : List Byte :=
  beBytes 2 r.creditsHeld ++ beBytes 1 r.creditsReserved ++ beBytes 2 r.candidates.length ++
    beBytes 1 ((r.outstanding.toList.filter (·.isSome)).length)

/-- Reclaim as RCL takes it (R147): credits, then a pass. -/
def takeReclaim (payload : List Byte) (s : State) : State × Reply :=
  if s.cfg.mode ≠ .operating then (s, plain .notReady)
  else
    let held := Nat.min (s.rcl.creditsHeld + countOf256 (field payload 0 1)) Config.creditMax
    let t := reclaimPass { s with rcl.creditsHeld := held }
    (t, ⟨.ok, reclaimBody t.rcl⟩)

/-- RECLAIM (R147). -/
def execReclaim (f : Frame) (s : State) : Out := request 0x1D#8 (.reclaim f) f (takeReclaim f.payload) s

end Sys2Proof.Machine
end

