-- ==== Sys2Proof/Machine/Dispatch.lean ====
section
/-! DEFINITION. The meaning of every command: one arm per row of spec/opcode_table.json. -/

namespace Sys2Proof.Machine

/-- A command's effect on everything but the queue of commands. -/
def exec (i : Instr) (s : State) : Host.Outcome State Fault Refusal :=
  match i with
  | .identify f => Sys2Proof.Machine.execIdentify f s
  | .start f => Sys2Proof.Machine.execStart f s
  | .stop f => Sys2Proof.Machine.execStop f s
  | .reset f => Sys2Proof.Machine.execReset f s
  | .writeSetting f => Sys2Proof.Machine.execWriteSetting f s
  | .readSettings f => Sys2Proof.Machine.execReadSettings f s
  | .openStream f => Sys2Proof.Machine.execOpenStream f s
  | .streamData f => Sys2Proof.Machine.execStreamData f s
  | .closeStream f => Sys2Proof.Machine.execCloseStream f s
  | .abortStream f => Sys2Proof.Machine.execAbortStream f s
  | .retireStream f => Sys2Proof.Machine.execRetireStream f s
  | .setStreamOption f => Sys2Proof.Machine.execSetStreamOption f s
  | .takeNotice f => Sys2Proof.Machine.execTakeNotice f s
  | .setNoticeMask f => Sys2Proof.Machine.execSetNoticeMask f s
  | .takeSnapshot f => Sys2Proof.Machine.execTakeSnapshot f s
  | .readSnapshot f => Sys2Proof.Machine.execReadSnapshot f s
  | .setDay f => Sys2Proof.Machine.execSetDay f s
  | .readRetention f => Sys2Proof.Machine.execReadRetention f s
  | .setHold f => Sys2Proof.Machine.execSetHold f s
  | .clearHold f => Sys2Proof.Machine.execClearHold f s
  | .setFreeze f => Sys2Proof.Machine.execSetFreeze f s
  | .clearFreeze f => Sys2Proof.Machine.execClearFreeze f s
  | .listRecipes f => Sys2Proof.Machine.execListRecipes f s
  | .readRecipeHead f => Sys2Proof.Machine.execReadRecipeHead f s
  | .readRecipe f => Sys2Proof.Machine.execReadRecipe f s
  | .readChunk f => Sys2Proof.Machine.execReadChunk f s
  | .storeStatus f => Sys2Proof.Machine.execStoreStatus f s
  | .clearStoreFaults f => Sys2Proof.Machine.execClearStoreFaults f s
  | .reclaim f => Sys2Proof.Machine.execReclaim f s
  | .badFrame bytes => Sys2Proof.Machine.execBadFrame bytes s
  | .unknownRequestKind kind f => Sys2Proof.Machine.execUnknownRequestKind kind f s
  | .frameTransmit => Sys2Proof.Machine.execFrameTransmit s
  | .resetTakesEffect => Sys2Proof.Machine.execResetTakesEffect s
  | .rstAssert => Sys2Proof.Machine.execRstAssert s
  | .rstRelease => Sys2Proof.Machine.execRstRelease s
  | .powerOn => Sys2Proof.Machine.execPowerOn s
  | .powerLoss => Sys2Proof.Machine.execPowerLoss s
  | .custodyChange asserted => Sys2Proof.Machine.execCustodyChange asserted s
  | .scanByte slot => Sys2Proof.Machine.execScanByte slot s
  | .digestComplete => Sys2Proof.Machine.execDigestComplete s
  | .lookupTaken => Sys2Proof.Machine.execLookupTaken s
  | .verifyCompare slot ticket => Sys2Proof.Machine.execVerifyCompare slot ticket s
  | .verifyReadComplete bank result => Sys2Proof.Machine.execVerifyReadComplete bank result s
  | .programComplete bank result => Sys2Proof.Machine.execProgramComplete bank result s
  | .walkBlockReadComplete bank result => Sys2Proof.Machine.execWalkBlockReadComplete bank result s
  | .restoreReadComplete bank result => Sys2Proof.Machine.execRestoreReadComplete bank result s
  | .scanReadComplete bank result => Sys2Proof.Machine.execScanReadComplete bank result s
  | .recountReadComplete bank result => Sys2Proof.Machine.execRecountReadComplete bank result s
  | .eraseComplete bank result => Sys2Proof.Machine.execEraseComplete bank result s
  | .retentionWriteComplete => Sys2Proof.Machine.execRetentionWriteComplete s
  | .condemnTaken bank => Sys2Proof.Machine.execCondemnTaken bank s

end Sys2Proof.Machine
end

