-- ==== Sys2Proof/Machine/Step.lean ====
section
/-! DEFINITION. One step: the command at the front of the queue, and what happens on an empty queue. -/

namespace Sys2Proof.Machine

/-- On an empty queue the part idles, but for a frame that the link holds and LIF now accepts: the link
delivers the oldest such frame (R183). No time passes in the model. (DESIGN CHOICE, log 8 and log 19) -/
def idle (s : State) : Host.Outcome State Fault Refusal :=
  match s.lif.held with
  | [] => .next s
  | i :: rest =>
    if s.lif.awaiting || s.lif.resetTaken then .next s
    else
      match exec i { s with lif.held := [] } with
      | .next t => .next { t with lif.held := rest }
      | .fault r => .fault r
      | .refused r => .refused r

/-- One step: the command at the front of the queue runs on the state with the queue's rest. -/
def step (s : State) : Host.Outcome State Fault Refusal :=
  match s.pending with
  | [] => idle s
  | i :: rest => exec i { s with pending := rest }

/-- The command that a table word spells, put at the front of the queue. -/
def State.withFetchWord (s : State) (nbits w : Nat) : State :=
  match decodeTableWord nbits w with
  | some i => { s with pending := i :: s.pending }
  | none => s

end Sys2Proof.Machine
end

