-- ==== Sys2Proof/Safety.lean ====
section
/-! DEFINITION. What counts as a safe state: the invariants of the part, each named for the law of the manual
that it carries, and the words in which the statements speak of requests and answers. -/

namespace Sys2Proof.Machine

/-! ## Requests and answers -/

/-- LIF takes the next frame that the link delivers: the part is not held in reset, no immediate reply waits
to begin, no Reset has been taken and the link holds no earlier frame (R183, R188, R189). -/
def Listening (s : State) : Prop := s.inReset = false ∧ linkReady s = true

/-- A request frame with a flags byte of 00h (R181). -/
def sound (tag : BitVec 16) (payload : List Byte) : Frame := ⟨tag, 0#8, payload⟩

/-- A request of a kind is answered with a reply, leaving the state `t` behind it: the reply joins the
transmit queue and LIF waits for it to begin (R182, R183). -/
def answer (kind : Byte) (tag : BitVec 16) (r : Reply) (t : State) : Out := act (sendReply kind tag r t)

/-- A Read Recipe or Read Chunk is answered in the action that takes it: LIF does not wait for the reply to
begin (R183, R185). -/
def answerRestore (kind : Byte) (tag : BitVec 16) (r : Reply) (t : State) : Out :=
  act (sendRestoreReply kind tag r t)

/-- The four resets: the Reset request's effect, RST#, power-on and the loss of power (R1, R189). -/
def isResetEvent : Instr → Bool
  | .resetTakesEffect => true
  | .rstAssert => true
  | .powerOn => true
  | .powerLoss => true
  | _ => false

/-- The completions of the banks (R86, R87, R88). -/
def isBankCompletion : Instr → Bool
  | .programComplete _ _ => true
  | .verifyReadComplete _ _ => true
  | .walkBlockReadComplete _ _ => true
  | .restoreReadComplete _ _ => true
  | .scanReadComplete _ _ => true
  | .recountReadComplete _ _ => true
  | .eraseComplete _ _ => true
  | _ => false

/-- Is an address one of a slab's 262,144 bytes (R60)? -/
def inSlab (p : Place) (a : Nat) : Prop := slabBase p ≤ a ∧ a < slabBase p + Config.slabBytes

/-- Is an address one of a segment's 8,388,608 bytes (R60)? -/
def inSegment (segment : Nat) (a : Nat) : Prop :=
  slabBase ⟨segment, 0⟩ ≤ a ∧ a < slabBase ⟨segment, 0⟩ + Config.slabsPerSegment * Config.slabBytes

/-! ## Codes of 11.6, as statements spell them -/

/-- State: 0 FREE, 1 OPEN, 2 DRAINING, 3 COMMITTING, 4 DONE (11.6). -/
def stateByte : SlotState → Byte
  | .free => 0x00#8
  | .opened => 0x01#8
  | .draining => 0x02#8
  | .committing => 0x03#8
  | .done => 0x04#8

/-- Phase: 0 none, 1 SCANNING, 2 DIGEST_WAIT, 3 DIGESTING, 4 LOOKUP, 5 VERIFYING, 6 DEFERRED (11.6). -/
def phaseByte : Option Phase → Byte
  | none => 0x00#8
  | some .scanning => 0x01#8
  | some .digestWait => 0x02#8
  | some .digesting => 0x03#8
  | some .lookup => 0x04#8
  | some .verifying => 0x05#8
  | some .deferred => 0x06#8

/-- Deferred item: 0 none, 1 CHUNK, 2 BLOCK, 3 HEAD (11.6). -/
def itemByte : Option Item → Byte
  | none => 0x00#8
  | some .chunk => 0x01#8
  | some .block => 0x02#8
  | some .head => 0x03#8

/-- Outcome: 0 none, 1 COMMITTED, 2 ABORTED (11.6). -/
def outcomeByte : Option StreamOutcome → Byte
  | none => 0x00#8
  | some .committed => 0x01#8
  | some .aborted => 0x02#8

/-- Close reason: 0 none, 1 END, 2 COUNT, 3 LIMIT, 4 ABORT (11.6). -/
def closeByte : Option CloseReason → Byte
  | none => 0x00#8
  | some .ended => 0x01#8
  | some .count => 0x02#8
  | some .limit => 0x03#8
  | some .abort => 0x04#8

/-- Mode: 0 STANDBY, 1 REBUILDING, 2 OPERATING, 3 STOPPING (11.6). -/
def modeByte : Mode → Byte
  | .standby => 0x00#8
  | .rebuilding => 0x01#8
  | .operating => 0x02#8
  | .stopping => 0x03#8

/-- Rebuild result: 0 NONE, 1 COMPLETE, 2 OVER_CAPACITY, 3 IN_PROGRESS (11.6). -/
def resultByte : RebuildResult → Byte
  | .notRun => 0x00#8
  | .complete => 0x01#8
  | .overCapacity => 0x02#8
  | .inProgress => 0x03#8

/-! ## The store -/

/-- The store's bytes stand in their one canonical form. -/
def StoreCanonical (s : State) : Prop := Memory.wf s.store

/-- The suspend count of a held erase never passes 15, the erase and every read at a bank lie on that bank, and
a bank runs an erase exactly when it holds it in condition RUNNING (R84, R85, R91). -/
def BankWork (s : State) : Prop :=
  ∀ b : Fin 4,
    (∀ g, (s.bank b).running = some (.erase g) ↔
      ∃ e, (s.bank b).held = some e ∧ e.segment = g ∧ e.condition = .running) ∧
    (∀ e, (s.bank b).held = some e → e.suspends ≤ 15 ∧ bankOf e.segment = b) ∧
    (∀ j, j ∈ (s.bank b).readQueue → bankOf j.place.segment = b) ∧
    (∀ j, (s.bank b).running = some (.read j) → bankOf j.place.segment = b)

/-! ## Streams -/

/-- The law of the phases (R2, R11, R12, R52): a slot with a phase is OPEN or DRAINING, each slot in the lookup
queue stands there once and in LOOKUP, the Digest Engine's slot is DIGESTING, and a slot with a verify is
VERIFYING. -/
def PhaseLaw (s : State) : Prop :=
  (∀ i, (s.slot i).phase ≠ none → (s.slot i).state = .opened ∨ (s.slot i).state = .draining) ∧
  (s.dix.lookups.map Lookup.slot).Nodup ∧
  (∀ l ∈ s.dix.lookups, (s.slot l.slot).phase = some .lookup) ∧
  (∀ i, s.dge.current = some i → (s.slot i).phase = some .digesting) ∧
  (∀ i : Fin 64, s.dix.verifies[i] ≠ none → (s.slot i).phase = some .verifying)

/-- The law of the intake for one slot (R6, R8): it holds at most 262,144 bytes, the chunk in hand is the
head of it, and bytes chunked, dropped and held sum to the accepted length. -/
def SlotIntake (x : Slot) : Prop :=
  x.intake.length ≤ 262144 ∧
  (x.hand.elim 0 Hand.length) ≤ x.intake.length ∧
  (x.state = .opened ∨ x.state = .draining →
    (x.hand.elim 0 Hand.length) + x.chunker.len ≤ x.intake.length) ∧
  (x.accepted ≤ Config.counterMax →
    x.counters.chunked + x.counters.dropped + x.intake.length = x.accepted)

/-- The law of the intake (R6, R8). -/
def IntakeLaw (s : State) : Prop := ∀ i, SlotIntake (s.slot i)

/-- The sums of R27: chunks are new or duplicate, and so are their bytes, until a counter stops. -/
def SlotCounters (c : StreamCounters) : Prop :=
  (c.chunks < Config.counterMax → c.newChunks + c.dupChunks = c.chunks) ∧
  (c.chunked < Config.counterMax → c.newBytes + c.dupBytes = c.chunked) ∧
  c.collisions ≤ c.unindexed ∧ c.unindexed ≤ c.newChunks

/-- The sums among each slot's counters (R27). -/
def CounterSums (s : State) : Prop := ∀ i, SlotCounters (s.slot i).counters

/-- A chunker's sums are the sums over its window by their definition (R29), and its window is the last 48
bytes, or all of them. -/
def Rolled (c : Chunker) : Prop :=
  c.a = windowA c.window ∧ c.b = windowB c.window ∧ c.window.length = Nat.min windowBytes c.position

/-- Every chunker's sums agree with R29. -/
def ChunkersRolled (s : State) : Prop := ∀ i, Rolled (s.slot i).chunker

/-- A power of two from 4 to 65,536 (R34). -/
def IsDivisor (d : Nat) : Prop := ∃ k, 2 ≤ k ∧ k ≤ 16 ∧ d = 2 ^ k

/-- The bounds that a stream's profile values satisfy (R34). -/
def ProfileBounds (p : Profile) : Prop :=
  64 ≤ p.min ∧ p.min ≤ p.tgt ∧ p.tgt ≤ p.max ∧ p.max ≤ 65536 ∧ IsDivisor p.d1 ∧ IsDivisor p.d2

/-- The law of chunk lengths for one slot (R34, R35): the chunk in hand is 1 to MAX bytes long, and at least
MIN while the stream still takes data; the current chunk never reaches MAX. -/
def SlotChunk (x : Slot) : Prop :=
  (x.state ≠ .free → ProfileBounds x.profile) ∧
  (∀ h, x.hand = some h → x.state ≠ .free ∧ 1 ≤ h.length ∧ h.length ≤ x.profile.max ∧
    (x.state = .opened → x.profile.min ≤ h.length)) ∧
  (x.state = .opened ∨ x.state = .draining → x.chunker.len < x.profile.max)

/-- The four in-force profiles are normalised (R197). -/
def ProfilesLawful (s : State) : Prop := ∀ p : Fin 4, ProfileBounds (profileIn s.cfg.inForce p)

/-- A staged profile field lies in its own range (R197). -/
def StagedField (n v : Nat) : Prop := if n % 5 < 3 then 64 ≤ v ∧ v ≤ 65536 else IsDivisor v

/-- Every setting stands in its range, staged and in force; class I settings agree (R194, R195, R197). -/
def SettingsLaw (s : State) : Prop :=
  64 ≤ s.cfg.installed ∧
  (∀ n : Fin 26, n.val < 20 → StagedField n.val s.cfg.staged[n]) ∧
  ProfilesLawful s ∧
  (∀ v, v = s.cfg.staged ∨ v = s.cfg.inForce →
    v[20] ≤ 1 ∧ v[21] ≤ 1 ∧ v[22] ≤ 1024 ∧ v[23] ≤ 64 ∧ 64 ≤ v[24] ∧ v[24] ≤ s.cfg.installed ∧ v[25] ≤ 1) ∧
  s.cfg.staged[20] = s.cfg.inForce[20] ∧ s.cfg.staged[21] = s.cfg.inForce[21] ∧
  s.cfg.staged[22] = s.cfg.inForce[22] ∧ s.cfg.staged[25] = s.cfg.inForce[25]

/-- The law of chunk lengths (R35), with the profiles it rests on. -/
def ChunkLaw (s : State) : Prop := SettingsLaw s ∧ ∀ i, SlotChunk (s.slot i)

/-! ## The index, the slab map and the segments -/

/-- The index never holds two entries of one key, and each entry stands in its own bucket (R40, R48). -/
def IndexLaw (s : State) : Prop :=
  AssocWf s.dix.index ∧
  (∀ e ∈ s.dix.index, e.1 / 8 = bucketOf e.2.digest) ∧
  (∀ e ∈ s.dix.index, ∀ e' ∈ s.dix.index,
    e.2.digest = e'.2.digest → e.2.length = e'.2.length → e = e')

/-- Sequences given out lie below the next one, those in buffers are at least 16, and the highest sequence
that a rebuild has found bounds its slab map (R66, R76, R157, R164). -/
def SequenceLaw (s : State) : Prop :=
  AssocWf s.plu.map ∧
  (∀ q ∈ s.plu.buffered, 16 ≤ q) ∧
  (∀ n, s.plu.nextSeq = some n →
    16 ≤ n ∧ n ≤ Config.sequenceEnd ∧ (∀ e ∈ s.plu.map, e.1 < n) ∧ (∀ q ∈ s.plu.buffered, q < n)) ∧
  (∀ r, s.cfg.rebuild = some r → s.plu.nextSeq = none ∧ s.plu.buffered = [] ∧
    (∀ h, r.highestSeq = some h → 16 ≤ h ∧ h ≤ 4294967294) ∧
    ∀ e ∈ s.plu.map, ∃ h, r.highestSeq = some h ∧ e.1 ≤ h)

/-- At most one segment is OPEN and at most one buffer is FILLING (R63, R73). -/
def OneOpen (s : State) : Prop :=
  AssocWf s.plu.segments ∧
  (s.plu.segments.filter (fun e => e.2.isOpen)).length ≤ 1 ∧
  (s.plu.buffers.toList.filter (fun b => b.any (·.state == .filling))).length ≤ 1

/-- No reference count passes 2^32 - 1 (R70, R72). -/
def CountsWithin (s : State) : Prop := ∀ e ∈ s.plu.map, e.2.count ≤ Config.countMax

/-- A rebuild is in progress in REBUILDING alone, segments are listed in OPERATING alone, and in STANDBY and
REBUILDING no condemn is outstanding (R145, R149, R153, R155). -/
def CondemnLaw (s : State) : Prop :=
  (s.cfg.mode ≠ .operating → s.rcl.candidates = []) ∧
  (s.cfg.rebuild ≠ none → s.cfg.mode = .rebuilding) ∧
  (s.cfg.mode = .standby ∨ s.cfg.mode = .rebuilding → ∀ b : Fin 4, s.rcl.outstanding[b] = none)

/-! ## Recipes and retention -/

/-- The catalog holds at most 4,096 entries, and no two of one recipe number (R106). -/
def CatalogLaw (s : State) : Prop := AssocWf s.rcu.catalog ∧ s.rcu.catalog.length ≤ 4096

/-- A DAY write in flight carries a day above the one in force and at most 7 ahead of it, and a HOLD write in
flight is for a branch that is not held (R129, R136). -/
def WriteLaw (s : State) : Prop :=
  s.rtn.memory.day ≤ Config.dayMax ∧
  (∀ d, s.rtn.inFlight = some (.day d) →
    s.rtn.memory.day < d ∧ d ≤ s.rtn.memory.day + 7 ∧ d ≤ Config.dayMax) ∧
  (∀ b start, s.rtn.inFlight = some (.hold b start) → assocGet s.rtn.memory.holds b = none)

/-- Is a write one that releases protection: an UNHOLD or an UNFREEZE (R126)? -/
def RetentionWrite.releases : RetentionWrite → Bool
  | .unhold _ => true
  | .unfreeze => true
  | _ => false

/-- A recipe that is committed and retained, and on which nothing in the part works: its entry is LIVE, it
is neither queued nor walked, no stream carries it, and the number is not given out again (R106, R111). -/
def SettledRecipe (n : Nat) (r : Recipe) (s : State) : Prop :=
  AssocWf s.rcu.catalog ∧ assocGet s.rcu.catalog n = some r ∧ r.state = .live ∧
  n ∉ s.rcu.releaseQueue ∧ (∀ w, s.rcu.walk = some w → w.recipe ≠ n) ∧
  (∀ i, (s.slot i).recipe = n →
    slotAtRest (s.slot i) = true ∧ (s.slot i).phase = none ∧ (s.slot i).hand = none) ∧
  (∀ k, s.rcu.nextRecipe = some k → n < k)

/-! ## Notices -/

/-- The per-stream kinds, whose subject is a slot (R168). -/
def NoticeKind.perStream : NoticeKind → Bool
  | .streamStalled => true
  | .streamDone => true
  | .streamSpace => true
  | _ => false

/-- The notice set holds no pair twice, each pair's subject is of its kind, and no pair is of a kind that the
mask turns off (R168, R169, R172). -/
def NoticeLaw (s : State) : Prop :=
  (s.rpu.notices.map Notice.order).Pairwise (· < ·) ∧
  ∀ n ∈ s.rpu.notices, n.slot.isSome = n.kind.perStream ∧ kindEnabled s.rpu.mask n.kind = true

end Sys2Proof.Machine
end

