-- ==== Sys2Proof/WellFormed.lean ====
section
/-! DEFINITION. Which commands are well formed: a frame that R180 lets through, a bad frame that it does not,
an unknown kind that is one. -/

namespace Sys2Proof

/-- Does a frame's payload fit a frame (R180)? -/
def Frame.fits (f : Frame) : Bool := f.payload.length ≤ Config.payloadMax

/-- A command as the link or the part can raise it. -/
def Instr.wellFormed : Instr → Bool
  | .identify f => f.fits
  | .start f => f.fits
  | .stop f => f.fits
  | .reset f => f.fits
  | .writeSetting f => f.fits
  | .readSettings f => f.fits
  | .openStream f => f.fits
  | .streamData f => f.fits
  | .closeStream f => f.fits
  | .abortStream f => f.fits
  | .retireStream f => f.fits
  | .setStreamOption f => f.fits
  | .takeNotice f => f.fits
  | .setNoticeMask f => f.fits
  | .takeSnapshot f => f.fits
  | .readSnapshot f => f.fits
  | .setDay f => f.fits
  | .readRetention f => f.fits
  | .setHold f => f.fits
  | .clearHold f => f.fits
  | .setFreeze f => f.fits
  | .clearFreeze f => f.fits
  | .listRecipes f => f.fits
  | .readRecipeHead f => f.fits
  | .readRecipe f => f.fits
  | .readChunk f => f.fits
  | .storeStatus f => f.fits
  | .clearStoreFaults f => f.fits
  | .reclaim f => f.fits
  | .badFrame bytes => Machine.frameIsBad bytes
  | .unknownRequestKind kind f => !Machine.isRequestKind kind && f.fits
  | .frameTransmit => true
  | .resetTakesEffect => true
  | .rstAssert => true
  | .rstRelease => true
  | .powerOn => true
  | .powerLoss => true
  | .custodyChange _ => true
  | .scanByte _ => true
  | .digestComplete => true
  | .lookupTaken => true
  | .verifyCompare _ _ => true
  | .verifyReadComplete _ _ => true
  | .programComplete _ _ => true
  | .walkBlockReadComplete _ _ => true
  | .restoreReadComplete _ _ => true
  | .scanReadComplete _ _ => true
  | .recountReadComplete _ _ => true
  | .eraseComplete _ _ => true
  | .retentionWriteComplete => true
  | .condemnTaken _ => true

end Sys2Proof
end

