-- ==== Sys2Proof/Certificates/Slice0/Obligations.lean ====
section
/-! DEFINITION. The statements for the provers. -/

open Sys2Proof Sys2Proof.Machine

/-! ## Commands and frames -/

/-- A step takes the command at the front of the queue and runs it on the state with the queue's rest. No
rule of the manual: the queue is the model's own (log 13). -/
def Obligations.StepRunsFrontCommand : Prop :=
  ∀ (c : Instr) (rest : List Instr) (s : State),
    s.pending = c :: rest → step s = exec c { s with pending := rest }

/-- On an empty queue nothing happens, but for the oldest frame that the link holds by its own pacing, which
is delivered once LIF accepts a frame again (R183 gives the pacing; that it is a step of an empty queue is
the model's choice, log 8). -/
def Obligations.EmptyQueueDeliversHeldFrame : Prop :=
  ∀ s : State, s.pending = [] →
    (s.lif.held = [] → step s = .next s) ∧
    (s.lif.awaiting = true ∨ s.lif.resetTaken = true → step s = .next s) ∧
    (∀ i rest t, s.lif.held = i :: rest → s.lif.awaiting = false → s.lif.resetTaken = false →
      exec i { s with lif.held := [] } = .next t → step s = .next { t with lif.held := rest })

/-- Every request that a sound frame can spell comes back from its own bytes, and every frame that passes the
integrity check is the frame of the command it decodes to: no bit of a frame is dropped (R180, R181, 11.6). -/
def Obligations.FramesDecodeToTheirCommands : Prop :=
  (∀ (c : Instr) (kind : Byte) (f : Frame), c.wellFormed = true → frameOf c = some (kind, f) →
    ∃ bytes, encodeFrame c = some bytes ∧ bytes.length = 10 + f.payload.length ∧ decodeFrame bytes = c) ∧
  (∀ bytes : List Byte, frameIsBad bytes = false → encodeFrame (decodeFrame bytes) = some bytes) ∧
  (∀ bytes : List Byte, frameIsBad bytes = true → decodeFrame bytes = .badFrame bytes)

/-- A frame that fails R180 is discarded without a reply: the link error counter goes up by one and
LINK_ERROR is raised; while LIF takes no frame it changes nothing or waits at the link as any frame does
(R183, R189; log 8). Of a sound frame the first check that fails answers: UNKNOWN for a kind outside 01h to
1Dh, then MALFORMED for a flags byte that is not 00h or a payload length that the kind does not allow; the
reply carries the received kind and tag and an empty body, and the request changes nothing. It is an immediate
reply for a Read Recipe and a Read Chunk as well, which is the model's choice (R180, R181; log 17). -/
def Obligations.FrameChecksAnswerInOrder : Prop :=
  (∀ (bytes : List Byte) (s : State), frameIsBad bytes = true →
    (Listening s → exec (.badFrame bytes) s =
      act (raise (deviceNotice .linkError)
        { s with lif.linkErrors := Nat.min (s.lif.linkErrors + 1) (2 ^ 48 - 1) })) ∧
    (s.inReset = true → exec (.badFrame bytes) s = act s) ∧
    (s.inReset = false → linkReady s = false → exec (.badFrame bytes) s =
      act { s with lif.held := s.lif.held ++ [.badFrame bytes] })) ∧
  (∀ (kind : Byte) (f : Frame) (s : State), Listening s → f.payload.length ≤ 8256 →
    (kind.toNat < 0x01 ∨ 0x1D < kind.toNat) →
    exec (.unknownRequestKind kind f) s = answer kind f.tag ⟨.unknown, []⟩ s) ∧
  (∀ (c : Instr) (kind : Byte) (f : Frame) (s : State), Listening s → c.wellFormed = true →
    f.payload.length ≤ 8256 → frameOf c = some (kind, f) → 0x01 ≤ kind.toNat → kind.toNat ≤ 0x1D →
    (f.flags ≠ 0#8 ∨ lengthAllowed kind.toNat f.payload.length = false) →
    exec c s = answer kind f.tag ⟨.malformed, []⟩ s)

/-- While the part is held in reset, LIF takes no frame: a delivered frame changes nothing (R189). While an
immediate reply waits to begin, or a Reset has been taken, the next frame waits at the link and nothing else
changes (R183, R188; where it waits is the model's choice, log 8). -/
def Obligations.FrameIsNotTakenBeforeItsTurn : Prop :=
  ∀ (c : Instr) (kind : Byte) (f : Frame) (s : State), frameOf c = some (kind, f) →
    (isRequestKind kind = false ∨ c ≠ .unknownRequestKind kind f) →
    (s.inReset = true → exec c s = act s) ∧
    (s.inReset = false → linkReady s = false → exec c s = act { s with lif.held := s.lif.held ++ [c] })

/-- FRAME_TRANSMIT begins to send the oldest frame of the transmit queue. A reply carries kind 80h, its
request's tag, and bit 0 of the flags byte exactly when the notice set is then non-empty; an attention frame
carries kind 81h, tag 0000h and its number of pairs. A request waits no longer once its immediate reply has
begun (R183, R184, R186). -/
def Obligations.FrameTransmitSendsOldest : Prop :=
  ∀ (s : State) (t : TxFrame) (rest : List TxFrame), s.lif.tx = t :: rest →
    (∀ w, s.lif.wire = some w → w.reset = false) →
    exec .frameTransmit s =
      act { s with lif := { s.lif with
        tx := rest
        wire := some (match t with
          | .reply _ r tag payload =>
            ⟨frameBytes 0x80#8 (if s.rpu.notices = [] then 0#8 else 1#8) tag payload, r⟩
          | .attention pairs =>
            ⟨frameBytes 0x81#8 (if s.rpu.notices = [] then 0#8 else 1#8) 0#16 (beBytes 2 (pairs.getD 0)), false⟩)
        awaiting := (match t with
          | .reply true _ _ _ => false
          | _ => s.lif.awaiting) } }

/-! ## Identify, resets and lines -/

/-- Identify is taken in every mode, changes nothing, and answers the 46 bytes of R187. The installed segment
count is read from the strap at a reset and stays the same for a run (R187). -/
def Obligations.IdentifyAnswersDescription : Prop :=
  (∀ (c : Instr) (s t : State), exec c s = .next t →
    t.cfg.installed = s.cfg.installed ∨ (isResetEvent c = true ∧ t.cfg.installed = s.lines.strap.count)) ∧
  ∀ (tag : BitVec 16) (s : State), Listening s →
    ∃ body : List Byte, body.length = 46 ∧
      body = [0x50#8, 0x61#8, 0x6A#8, 0x6D#8, 0x6F#8, 0x72#8, 0x61#8] ++ List.replicate 9 0#8 ++
        [0x50#8, 0x44#8, 0x2D#8, 0x38#8, 0x31#8, 0x36#8] ++ List.replicate 10 0#8 ++
        [0x01#8] ++ beBytes 2 s.cfg.installed ++ [4#8] ++ [64#8] ++ beBytes 4 8388608 ++
        beBytes 2 4096 ++ beBytes 2 1024 ++
        [match s.cfg.mode with
          | .standby => 0x00#8
          | .rebuilding => 0x01#8
          | .operating => 0x02#8
          | .stopping => 0x03#8] ∧
      exec (.identify (sound tag [])) s = answer 0x01#8 tag ⟨.ok, body⟩ s

/-- Reset is taken in every mode: its OK reply joins the transmit queue and LIF stops accepting frames, and
the reset has not taken effect yet (R188). What each of the four resets leaves: every block at its reset
value, the retention memory as it stood,
and the write in flight as it stood after RST# and the Reset request but none after a loss of power or a
power-on (R1, R83, R84, R125, R128, R143, R169, R189). The store's bytes outside the slabs of running
programs and of started erases are unchanged (R100). Three things here are the model's own: a report owed is
lost with the power (log 15), the frames that the link holds are dropped with the rest of LIF (log 8), and the
tickets of verifies begin again at 0 (log 20). -/
def Obligations.ResetLeavesResetValues : Prop :=
  (∀ (tag : BitVec 16) (s : State), Listening s →
    exec (.reset (sound tag [])) s =
      act { s with lif := { s.lif with
        tx := s.lif.tx ++ [.reply true true tag [0x04#8, 0x00#8]]
        awaiting := true
        resetTaken := true } }) ∧
  ∀ (c : Instr) (s : State), isResetEvent c = true →
    (c = .resetTakesEffect → ∃ w, s.lif.wire = some w ∧ w.reset = true) →
    (c = .rstAssert → s.lines.rst = false) →
    ∃ t, exec c s = .next t ∧
      t.slots = Vector.replicate 64 freeSlot ∧ t.dge = resetDge ∧ t.dix = resetDix ∧ t.plu = resetPlu ∧
      t.stc = resetStc ∧ t.rcu = resetRcu ∧ t.rcl = resetRcl ∧ t.cfg = resetCfg s.lines.strap.count ∧
      t.rpu = resetRpu ∧ t.lif = resetLif ∧
      t.rtn = ⟨s.rtn.memory, if c = .powerOn ∨ c = .powerLoss then none else s.rtn.inFlight,
        false, false, ⟨0, 0, 0, 0⟩⟩ ∧
      t.lines = (match c with
        | .rstAssert => { s.lines with rst := true }
        | .powerOn => { s.lines with supply := true }
        | .powerLoss => { s.lines with supply := false }
        | _ => s.lines) ∧
      t.pending = s.pending ∧
      ∀ a, (∀ (b : Fin 4) (q : Nat) (p : Place), (s.bank b).running = some (.program q p) → ¬ inSlab p a) →
        (∀ (b : Fin 4) (e : HeldErase), (s.bank b).held = some e → e.condition ≠ .waiting →
          ¬ inSegment e.segment a) →
        readByte t.store a = readByte s.store a

/-- Each of the four resets cuts off the programs that the banks run. The target slab of each, where no other
bank programs it and no started erase covers it, is left holding the full image, or bytes that are not VALID
(R100; that a VALID slab holds no other image is the rule's, which bytes the slab otherwise holds is free,
log 2). -/
def Obligations.CutProgramLeavesImageOrNotValid : Prop :=
  ∀ (c : Instr) (s t : State) (b : Fin 4) (q : Nat) (p : Place) (x : FillBuffer), isResetEvent c = true →
    (c = .resetTakesEffect → ∃ w, s.lif.wire = some w ∧ w.reset = true) →
    (c = .rstAssert → s.lines.rst = false) →
    (s.bank b).running = some (.program q p) →
    (∀ a, inSlab p a →
      (∀ (b' : Fin 4) (q' : Nat) (p' : Place), b' ≠ b → (s.bank b').running = some (.program q' p') →
        ¬ inSlab p' a) ∧
      ∀ (b' : Fin 4) (e : HeldErase), (s.bank b').held = some e → e.condition ≠ .waiting →
        ¬ inSegment e.segment a) →
    s.plu.bufferOf q = some x → (bufferImage x).length = 262144 → exec c s = .next t →
    readSlab t.store p = bufferImage x ∨ slabCondition p (readSlab t.store p) ≠ .valid

/-- Release of RST#: the part stands in its reset state, and a retention write that completed while RST# was
asserted is then counted and reported (R128, R189). CUSTODY takes the level given and nothing else changes
(R139). -/
def Obligations.ResetReleaseAndCustodyLine : Prop :=
  (∀ s : State, s.lines.rst = true → s.rtn.reportOwed = false →
    exec .rstRelease s = act { s with lines.rst := false }) ∧
  (∀ s : State, s.lines.rst = true → s.rtn.reportOwed = true →
    exec .rstRelease s = act (raise (deviceNotice .holdWritten)
      { s with
        lines.rst := false
        rtn.reportOwed := false
        rtn.counters.writes := Nat.min (s.rtn.counters.writes + 1) (2 ^ 48 - 1) })) ∧
  (∀ (level : Bool) (s : State), exec (.custodyChange level) s = act { s with lines.custody := level })

/-- A part that has just been powered on and holds nothing (R1, R11, R31, R83, R84, R103, R106, R107, R125,
R143, R167, R169, R189, R190, R195; the strap, the CUSTODY level and the blank store are the model's
choices, log 5 and log 6, and so is the empty queue of commands, log 13). Every law that the steps keep holds
of it. -/
def Obligations.ResetStateValues : Prop :=
  State.reset.cfg.mode = .standby ∧ State.reset.cfg.result = .notRun ∧ State.reset.cfg.rebuild = none ∧
  (∀ i, (State.reset.slot i).state = .free ∧ (State.reset.slot i).phase = none ∧
    (State.reset.slot i).outcome = none ∧ (State.reset.slot i).intake = [] ∧
    (State.reset.slot i).hand = none ∧ (State.reset.slot i).item = none ∧
    (State.reset.slot i).records = 0 ∧ (State.reset.slot i).headSeq = none ∧
    (State.reset.slot i).closeReason = none ∧ (State.reset.slot i).summary = none ∧
    (State.reset.slot i).watchOn = false ∧ (State.reset.slot i).watchLevel = 64 ∧
    (State.reset.slot i).verifyOverride = .default ∧
    (State.reset.slot i).counters = ⟨0, 0, 0, 0, 0, 0, 0, 0, 0, 0, 0⟩ ∧
    (State.reset.slot i).chunker = ⟨[], 0, 0, 0, 0⟩ ∧ State.reset.recordBuffer i = ⟨[], 0⟩) ∧
  State.reset.dge = ⟨none, 63⟩ ∧ State.reset.dix.index = [] ∧ State.reset.dix.lookups = [] ∧
  State.reset.plu.map = [] ∧ State.reset.plu.segments = [] ∧ State.reset.plu.nextSeq = none ∧
  State.reset.plu.floor = none ∧ State.reset.plu.waitList = [] ∧ State.reset.plu.buffered = [] ∧
  (∀ b, State.reset.bank b = ⟨none, [], [], none, ⟨false, false, false⟩, ⟨0, 0, 0⟩⟩) ∧
  State.reset.rcu.catalog = [] ∧ State.reset.rcu.releaseQueue = [] ∧ State.reset.rcu.nextRecipe = none ∧
  State.reset.rtn.memory = ⟨0, false, []⟩ ∧ State.reset.rtn.inFlight = none ∧
  State.reset.rcl.candidates = [] ∧ State.reset.rcl.creditsHeld = 0 ∧ State.reset.rcl.creditsReserved = 0 ∧
  State.reset.rpu.notices = [] ∧ State.reset.rpu.mask = 0x7FF#11 ∧ State.reset.lif.tx = [] ∧
  State.reset.lif.linkErrors = 0 ∧
  State.reset.setting 20 = 0 ∧ State.reset.setting 21 = 1 ∧ State.reset.setting 22 = 64 ∧
  State.reset.setting 23 = 4 ∧ State.reset.setting 24 = State.reset.cfg.installed ∧ State.reset.setting 25 = 0 ∧
  (∀ a, readByte State.reset.store a = 0xFF#8) ∧ State.reset.pending = [] ∧
  StoreCanonical State.reset ∧ BankWork State.reset ∧ IntakeLaw State.reset ∧ CounterSums State.reset ∧
  ChunkersRolled State.reset ∧ ChunkLaw State.reset ∧ IndexLaw State.reset ∧ SequenceLaw State.reset ∧
  OneOpen State.reset ∧ CountsWithin State.reset ∧ CatalogLaw State.reset ∧ WriteLaw State.reset ∧
  NoticeLaw State.reset ∧ PhaseLaw State.reset ∧ CondemnLaw State.reset

/-! ## Modes and settings -/

/-- Start in STANDBY with every bank idle: the staged values of settings 23 and 24 come in force, the mode is
REBUILDING, the working state is emptied, and the first 32 whole-slab reads stand at each bank, one of them
running. Everything that R155 does not name is left as it is, but that no bank erase flag is set, as with every
bank idle and no segment CONDEMNED none may be (R143; that Start clears them is the model's inference, log 32).
In STANDBY with a bank not idle Start is BUSY, and in the other modes STATE (R155, R156, R191). -/
def Obligations.StartBeginsRebuild : Prop :=
  ∀ (tag : BitVec 16) (s : State), Listening s →
    (s.cfg.mode = .standby → s.banksIdle = true → 64 ≤ s.cfg.staged[24] →
      ∃ t r, exec (.start (sound tag [])) s = answer 0x02#8 tag ⟨.ok, []⟩ t ∧
        t.cfg = { s.cfg with
          inForce := (s.cfg.inForce.set 23 s.cfg.staged[23]).set 24 s.cfg.staged[24]
          mode := .rebuilding
          result := .inProgress
          counters := ⟨0, 0, 0, 0, 0, 0, 0, 0, 0, 0, 0, 0⟩
          rebuild := some r } ∧
        r.highestSeq = none ∧ r.highestRecipe = none ∧ r.heads = [] ∧
        t.dix = { s.dix with index := [] } ∧
        t.plu = ⟨Vector.replicate 2 none, none, [], [], [], none⟩ ∧
        t.rcu = { s.rcu with
          buffers := Vector.replicate 64 ⟨[], 0⟩
          catalog := []
          nextRecipe := none
          releaseQueue := []
          walk := none } ∧
        t.rcl = { s.rcl with candidates := [], eraseFlags := Vector.replicate 4 false } ∧
        (∀ b : Fin 4, t.bank b = { s.bank b with
          running := some (.read ⟨.scan, ⟨b.val, 0⟩, 0, 262144⟩)
          readQueue := (List.range 31).map (fun k => ⟨.scan, ⟨b.val, k + 1⟩, 0, 262144⟩) }) ∧
        t.stc.lastFault = s.stc.lastFault ∧ t.slots = s.slots ∧ t.dge = s.dge ∧ t.rtn = s.rtn ∧
        t.rpu = s.rpu ∧ t.lif = s.lif ∧ t.lines = s.lines ∧ t.store = s.store ∧ t.draws = s.draws ∧
        t.pending = s.pending) ∧
    (s.cfg.mode = .standby → s.banksIdle = false →
      exec (.start (sound tag [])) s = answer 0x02#8 tag ⟨.busy, []⟩ s) ∧
    (s.cfg.mode ≠ .standby → exec (.start (sound tag [])) s = answer 0x02#8 tag ⟨.state, []⟩ s)

/-- Stop in OPERATING with every slot FREE or DONE: the walk and the release queue are abandoned, the
candidate list is emptied, and the filling slab is flushed: its program stands at its bank, or it waits for a
place, or is discarded where no bank works. The mode is STOPPING, or STANDBY at once exactly when every bank is
then idle and both buffers are FREE. With a slot in another state Stop is BUSY, and in the other modes STATE.
In STOPPING with every bank idle the slabs still waiting for a place are discarded with their map entries, and
the mode becomes STANDBY when the buffers left are all FREE; every completion at a bank ends so. A condemn
outstanding at the Stop is refused in STOPPING and returns its credit (R69, R80, R81, R116, R149, R150, R153, R154,
R192; O50 says what its taking does; that one not yet taken is refused in the action that ends STOPPING is the
model's choice, log 34). -/
def Obligations.StopFinishesStoreWork : Prop :=
  let refused (r : Rcl) : Rcl :=
    let condemns := r.outstanding.toList.filterMap id
    if condemns = [] then r else { r with
      outstanding := Vector.replicate 4 none
      creditsReserved := r.creditsReserved - (condemns.filter Condemn.reserved).length
      counters := { r.counters with refused := Nat.min (r.counters.refused + condemns.length) (2 ^ 48 - 1) } }
  (∀ (tag : BitVec 16) (s : State), Listening s →
    (s.cfg.mode = .operating → (∀ i, slotAtRest (s.slot i) = true) → OneOpen s →
      ∃ t, exec (.stop (sound tag [])) s = answer 0x03#8 tag ⟨.ok, []⟩ t ∧
        t.rcu = { s.rcu with walk := none, releaseQueue := [] } ∧
        t.rcl = (if t.cfg.mode = .standby then refused { s.rcl with candidates := [] }
          else { s.rcl with candidates := [] }) ∧
        (∀ x, some x ∈ t.plu.buffers.toList → x.state ≠ .filling) ∧
        (∀ x, some x ∈ s.plu.buffers.toList → x.state = .filling →
          (∀ p, s.plu.placeOf x.seq = some p → x.seq ∈ (t.bank (bankOf p.segment)).programQueue ∨
            (t.bank (bankOf p.segment)).running = some (.program x.seq p)) ∧
          (s.plu.placeOf x.seq = none → x.seq ∈ t.plu.waitList ∨
            (t.banksIdle = true ∧ x.seq ∉ t.plu.buffered))) ∧
        (t.cfg = { s.cfg with mode := .stopping } ∨ t.cfg = { s.cfg with mode := .standby }) ∧
        (t.cfg.mode = .standby ↔ t.banksIdle = true ∧ t.plu.buffers.toList = [none, none]) ∧
        t.slots = s.slots ∧ t.dge = s.dge ∧ t.dix = s.dix ∧ t.rtn = s.rtn ∧ t.rpu = s.rpu ∧ t.lif = s.lif ∧
        t.lines = s.lines ∧ t.store = s.store ∧ t.draws = s.draws ∧ t.pending = s.pending) ∧
    (s.cfg.mode = .operating → (∃ i, slotAtRest (s.slot i) = false) →
      exec (.stop (sound tag [])) s = answer 0x03#8 tag ⟨.busy, []⟩ s) ∧
    (s.cfg.mode ≠ .operating → exec (.stop (sound tag [])) s = answer 0x03#8 tag ⟨.state, []⟩ s)) ∧
  (∀ u : State,
    (u.cfg.mode ≠ .stopping ∨ u.banksIdle = false → stoppingCheck u = u) ∧
    (u.cfg.mode = .stopping → u.banksIdle = true →
      let v := stoppingCheck u
      v = { u with
        plu := { u.plu with buffers := v.plu.buffers, map := v.plu.map, waitList := [] }
        rcl := if v.cfg.mode = .standby then refused u.rcl else u.rcl
        cfg := { u.cfg with mode := v.cfg.mode } } ∧
      (∀ x, some x ∈ v.plu.buffers.toList ↔ some x ∈ u.plu.buffers.toList ∧ x.seq ∉ u.plu.waitList) ∧
      (∀ q, assocGet v.plu.map q = if q ∈ u.plu.waitList then none else assocGet u.plu.map q) ∧
      (v.cfg.mode = .standby ∨ v.cfg.mode = .stopping) ∧
      (v.cfg.mode = .standby ↔ v.plu.buffers.toList = [none, none]))) ∧
  ∀ (c : Instr) (s t : State), isBankCompletion c = true → s.cfg.mode = .stopping → s.cfg.rebuild = none →
    exec c s = .next t →
    (t.cfg.mode = .standby ↔ t.banksIdle = true ∧ t.plu.buffers.toList = [none, none]) ∧
    (t.banksIdle = true → t.plu.waitList = []) ∧
    (t.cfg.mode = .standby → ∀ b : Fin 4, t.rcl.outstanding[b] = none)

/-- Write Setting clamps the value into the setting's range, stages it and answers it; class I values come in
force at once, class S values wait for Start, and class B values are published, normalised, while publication
hold stands at 0, or all four profiles together at a write of 0 to setting 25. A write of 1 to setting 21 in
OPERATING makes the Reclaim Engine run a pass, and any other write leaves that engine as it was. A setting number
of 26 or above is RANGE and changes nothing (R146, R194, R195, R197). -/
def Obligations.WriteSettingClampsAndApplies : Prop :=
  ∀ (tag : BitVec 16) (n v : Nat) (s : State), Listening s → v < 2 ^ 32 →
    (∀ h : n < 26, ∃ (c : Nat) (t : State),
      exec (.writeSetting (sound tag (beBytes 1 n ++ beBytes 4 v))) s = answer 0x05#8 tag ⟨.ok, beBytes 4 c⟩ t ∧
      (n < 20 → n % 5 < 3 → c = Nat.max 64 (Nat.min v 65536)) ∧
      (n < 20 → 3 ≤ n % 5 → IsDivisor c ∧ (v < 4 → c = 4) ∧ (65536 < v → c = 65536) ∧
        (4 ≤ v → v ≤ 65536 → c ≤ v ∧ v < 2 * c)) ∧
      (n = 20 ∨ n = 21 ∨ n = 25 → c = Nat.min v 1) ∧ (n = 22 → c = Nat.min v 1024) ∧
      (n = 23 → c = Nat.min v 64) ∧ (n = 24 → c = Nat.max 64 (Nat.min v s.cfg.installed)) ∧
      t.cfg.staged = s.cfg.staged.set n c ∧
      t = { s with cfg.staged := t.cfg.staged, cfg.inForce := t.cfg.inForce, rcl := t.rcl } ∧
      (n ≠ 21 ∨ c = 0 ∨ s.cfg.mode ≠ .operating → t.rcl = s.rcl) ∧
      (n = 21 → c = 1 → s.cfg.mode = .operating → t.rcl = s.rcl.passOver true s.rcl.candidates) ∧
      (n = 23 ∨ n = 24 → t.cfg.inForce = s.cfg.inForce) ∧
      (n = 20 ∨ n = 21 ∨ n = 22 ∨ (n = 25 ∧ c = 1) → t.cfg.inForce = s.cfg.inForce.set n c) ∧
      (n = 25 → c = 0 →
        (∀ k : Fin 26, 20 ≤ k.val → t.cfg.inForce[k] = if k.val = 25 then 0 else s.cfg.inForce[k]) ∧
        ∀ p : Fin 4, profileIn t.cfg.inForce p = normalise (profileIn t.cfg.staged p)) ∧
      (n < 20 → s.cfg.inForce[25] ≠ 0 → t.cfg.inForce = s.cfg.inForce) ∧
      (n < 20 → s.cfg.inForce[25] = 0 →
        (∀ k : Fin 26, k.val / 5 ≠ n / 5 → t.cfg.inForce[k] = s.cfg.inForce[k]) ∧
        ∀ p : Fin 4, p.val = n / 5 → profileIn t.cfg.inForce p = normalise (profileIn t.cfg.staged p))) ∧
    (26 ≤ n → n < 256 →
      exec (.writeSetting (sound tag (beBytes 1 n ++ beBytes 4 v))) s = answer 0x05#8 tag ⟨.range, []⟩ s)

/-- Read Settings answers a run of staged or in-force values, clamped to number 63, numbers 26 to 63 as 0; a
first number above 63, a count of 0 or above 64 or a selector above 1 is RANGE. It changes nothing (R198). -/
def Obligations.ReadSettingsAnswersValues : Prop :=
  ∀ (tag : BitVec 16) (first count sel : Nat) (s : State), Listening s →
    first < 256 → count < 256 → sel < 256 →
    ((63 < first ∨ count = 0 ∨ 64 < count ∨ 1 < sel) →
      exec (.readSettings (sound tag (beBytes 1 first ++ beBytes 1 count ++ beBytes 1 sel))) s =
        answer 0x06#8 tag ⟨.range, []⟩ s) ∧
    (first ≤ 63 → 1 ≤ count → count ≤ 64 → sel ≤ 1 →
      exec (.readSettings (sound tag (beBytes 1 first ++ beBytes 1 count ++ beBytes 1 sel))) s =
        answer 0x06#8 tag ⟨.ok, beBytes 1 first ++ beBytes 1 (Nat.min count (64 - first)) ++
          (List.range (Nat.min count (64 - first))).flatMap (fun k =>
            if h : first + k < 26 then
              beBytes 4 (if sel = 0 then s.cfg.staged[first + k] else s.cfg.inForce[first + k])
            else beBytes 4 0)⟩ s)

/-! ## Streams -/

/-- Open Stream with every check of R4 passed: the slot is filled, a DONE slot being retired first, a
catalog entry in state OPEN is made under the next recipe number, and the reply carries the number, the
expiry day and the profile copied. Nothing else changes (R4, R5). -/
def Obligations.OpenStreamFillsSlot : Prop :=
  ∀ (tag : BitVec 16) (i : Fin 64) (p : Fin 4) (branch days declared : Nat) (label : List Byte) (k : Nat) (s : State),
    Listening s → s.cfg.mode = .operating → slotAtRest (s.slot i) = true →
    branch < 1024 → 1 ≤ days → days < 65536 → declared < 2 ^ 48 → label.length = 16 →
    s.rcu.catalog.length < 4096 → s.rcu.nextRecipe = some k → k < 2 ^ 32 →
    let q := profileIn s.cfg.inForce p
    let kept := Nat.min days 3650
    let expiry := Nat.min (s.rtn.memory.day + kept) 65535
    exec (.openStream (sound tag (beBytes 1 i.val ++ beBytes 1 p.val ++ beBytes 2 branch ++ beBytes 2 days ++
        beBytes 6 declared ++ label))) s =
      answer 0x07#8 tag
        ⟨.ok, beBytes 4 k ++ beBytes 2 expiry ++ beBytes 4 q.min ++ beBytes 4 q.tgt ++ beBytes 4 q.max ++
          beBytes 4 q.d1 ++ beBytes 4 q.d2⟩
        { s with
          slots := s.slots.set i
            { state := .opened, phase := some .scanning, outcome := none, branch := branch, label := label
              profileNo := p.val, profile := q, openDay := s.rtn.memory.day, retentionDays := kept
              expiryDay := expiry, declared := declared, accepted := 0, recipe := k, intake := []
              chunker := ⟨[], 0, 0, 0, 0⟩, hand := none, item := none, records := 0, headSeq := none
              watchOn := false, watchLevel := 64, verifyOverride := .default, closeReason := none
              summary := none, counters := ⟨0, 0, 0, 0, 0, 0, 0, 0, 0, 0, 0⟩ }
          rcu := { s.rcu with
            catalog := assocSet s.rcu.catalog k
              { branch := branch, label := label, profileNo := p.val, openDay := s.rtn.memory.day
                retentionDays := kept, expiryDay := expiry, byteTotal := 0, recordCount := 0, blockCount := 0
                closeReason := none, blocks := [], head := none, state := .opened, job := none
                damaged := false }
            nextRecipe := some (k + 1)
            buffers := s.rcu.buffers.set i ⟨[], 0⟩ }
          rpu := if (s.slot i).state = .done then
              { s.rpu with
                notices := s.rpu.notices.filter (fun n => n.slot ≠ some i)
                slotLatches := s.rpu.slotLatches.set i none }
            else s.rpu }

/-- The checks of Open Stream in their order: the first that fails gives the reply, and the request changes
nothing (R3, R4, R107). The other stream requests judge the slot number before the mode, and neither refusal
changes anything (R3). -/
def Obligations.StreamRequestsCheckInOrder : Prop :=
  (∀ (tag : BitVec 16) (slot p branch days declared : Nat) (label : List Byte) (s : State), Listening s →
    slot < 256 → p < 256 → branch < 65536 → days < 65536 → declared < 2 ^ 48 → label.length = 16 →
    let request := exec (.openStream (sound tag (beBytes 1 slot ++ beBytes 1 p ++ beBytes 2 branch ++
      beBytes 2 days ++ beBytes 6 declared ++ label))) s
    (63 < slot → request = answer 0x07#8 tag ⟨.range, []⟩ s) ∧
    (slot ≤ 63 → s.cfg.mode ≠ .operating → request = answer 0x07#8 tag ⟨.notReady, []⟩ s) ∧
    ∀ i : Fin 64, i.val = slot → s.cfg.mode = .operating →
      (slotAtRest (s.slot i) = false → request = answer 0x07#8 tag ⟨.busy, []⟩ s) ∧
      (slotAtRest (s.slot i) = true →
        (1023 < branch ∨ 3 < p ∨ days = 0 → request = answer 0x07#8 tag ⟨.range, []⟩ s) ∧
        (branch ≤ 1023 → p ≤ 3 → 1 ≤ days →
          4096 ≤ s.rcu.catalog.length ∨ (∀ k, s.rcu.nextRecipe = some k → 2 ^ 32 ≤ k) →
          request = answer 0x07#8 tag ⟨.catalogFull, []⟩ s))) ∧
  ∀ (c : Instr) (kind : Byte) (f : Frame) (slot : Byte) (rest : List Byte) (s : State), Listening s →
    (kind, c) ∈ [(0x08#8, Instr.streamData f), (0x09#8, .closeStream f), (0x0A#8, .abortStream f),
      (0x0B#8, .retireStream f), (0x0C#8, .setStreamOption f)] →
    wellFormedRequest kind f = true → f.payload = slot :: rest →
    (63 < slot.toNat → exec c s = answer kind f.tag ⟨.range, []⟩ s) ∧
    (slot.toNat ≤ 63 → s.cfg.mode = .standby ∨ s.cfg.mode = .rebuilding →
      exec c s = answer kind f.tag ⟨.notReady, []⟩ s)

/-- Stream Data in OPEN: a payload that fits is taken whole; what is kept joins the intake's tail, the rest
of a counted stream's payload counts as overrun, and the stream drains once its declared length is reached. A
payload above the free space is WINDOW, and a slot not OPEN is STATE; both leave everything as it was (R6, R7). -/
def Obligations.StreamDataTakesWholePayload : Prop :=
  ∀ (tag : BitVec 16) (i : Fin 64) (data : List Byte) (s : State), Listening s →
    1 ≤ data.length → data.length ≤ 8192 → (s.cfg.mode = .operating ∨ s.cfg.mode = .stopping) →
    let x := s.slot i
    let kept := if x.declared = 0 then data else data.take (x.declared - x.accepted)
    let reached := x.declared ≠ 0 ∧ x.declared ≤ x.accepted + kept.length
    (x.state = .opened → data.length ≤ 262144 - x.intake.length →
      exec (.streamData (sound tag (beBytes 1 i.val ++ data))) s =
        answer 0x08#8 tag
          ⟨.ok, beBytes 2 kept.length ++ beBytes 4 (262144 - (x.intake.length + kept.length))⟩
          (s.withSlot i { x with
            intake := x.intake ++ kept
            accepted := x.accepted + kept.length
            counters := { x.counters with
              received := Nat.min (x.counters.received + data.length) (2 ^ 48 - 1)
              overrun := Nat.min (x.counters.overrun + (data.length - kept.length)) (2 ^ 48 - 1) }
            state := if reached then .draining else .opened
            closeReason := if reached then some .count else x.closeReason })) ∧
    (x.state = .opened → 262144 - x.intake.length < data.length →
      exec (.streamData (sound tag (beBytes 1 i.val ++ data))) s =
        answer 0x08#8 tag ⟨.window, beBytes 2 0 ++ beBytes 4 (262144 - x.intake.length)⟩ s) ∧
    (x.state ≠ .opened →
      exec (.streamData (sound tag (beBytes 1 i.val ++ data))) s = answer 0x08#8 tag ⟨.state, []⟩ s)

/-- Close Stream: an OPEN stream drains with reason END, keeping its phase; with every intake byte taken it
cuts its final chunk in the same action, which an idle Digest Engine takes and a busy one leaves waiting; with
an empty intake and no chunk it makes its last placements in the same action, and waits in COMMITTING or
DEFERRED. In DRAINING and COMMITTING nothing changes, and FREE and DONE are STATE (R11, R18, R21, R36; that the
reply stands behind the attention frame of a notice that the last placements raise is the model's choice,
log 18). -/
def Obligations.CloseStreamDrains : Prop :=
  ∀ (tag : BitVec 16) (i : Fin 64) (s : State), Listening s →
    (s.cfg.mode = .operating ∨ s.cfg.mode = .stopping) →
    let x := s.slot i
    let request := exec (.closeStream (sound tag (beBytes 1 i.val))) s
    (x.state = .opened → (x.phase ≠ some .scanning ∨ x.hand ≠ none ∨ x.chunker.len < x.intake.length) →
      request = answer 0x09#8 tag ⟨.ok, []⟩
        (s.withSlot i { x with state := .draining, closeReason := some .ended })) ∧
    (x.state = .opened → x.phase = some .scanning → x.hand = none → x.chunker.len = x.intake.length →
      let final (p : Phase) : State := s.withSlot i { x with
        state := .draining
        closeReason := some .ended
        phase := some p
        hand := some ⟨x.intake.length, none⟩
        chunker := { x.chunker with len := 0 } }
      (0 < x.chunker.len →
        request = answer 0x09#8 tag ⟨.ok, []⟩ (dgeChoose (final .digestWait)) ∧
        (s.dge.current ≠ none → request = answer 0x09#8 tag ⟨.ok, []⟩ (final .digestWait)) ∧
        (s.dge.current = none → (∀ j, j ≠ i → (s.slot j).phase ≠ some .digestWait) →
          request = answer 0x09#8 tag ⟨.ok, []⟩ { final .digesting with dge := ⟨some i, i⟩ })) ∧
      (x.chunker.len = 0 →
        let drained := drainStep i (s.withSlot i { x with state := .draining, closeReason := some .ended })
        request = answer 0x09#8 tag ⟨.ok, []⟩ drained ∧
        (∀ r, assocGet s.rcu.catalog x.recipe = some r →
          (drained.slot i).state = .committing ∨ (drained.slot i).phase = some .deferred))) ∧
    (x.state = .draining ∨ x.state = .committing → request = answer 0x09#8 tag ⟨.ok, []⟩ s) ∧
    (x.state = .free ∨ x.state = .done → request = answer 0x09#8 tag ⟨.state, []⟩ s)

/-- Abort Stream in OPEN or DRAINING: the slot is DONE and ABORTED with its intake dropped, its work is
withdrawn from the Digest Engine, the lookup queue and the verify table, its record buffer is emptied, and
its recipe is on its way out with an abort job, or gone; its close fields count what the placed blocks hold.
Each record of the buffer and the verify give back one reference, and the verify's read leaves its bank's queue;
then, in OPERATING with no walk running, the head of the release queue is taken (O46 says how walks start), and
at last the Digest Engine, freed of the slot, chooses. No other slot changes but one that the Digest Engine then takes. In the
other states it is STATE (R23, R56, R72, R110; that the reply stands behind the attention frame of the
STREAM_DONE is the model's choice, log 18, and so is the order of the give-backs, log 31). -/
def Obligations.AbortStreamDropsEverything : Prop :=
  ∀ (tag : BitVec 16) (i : Fin 64) (s : State), Listening s →
    (s.cfg.mode = .operating ∨ s.cfg.mode = .stopping) →
    let x := s.slot i
    let held := (s.recordBuffer i).records
    let request := exec (.abortStream (sound tag (beBytes 1 i.val))) s
    (x.state = .opened ∨ x.state = .draining →
      ∃ t, request = answer 0x0A#8 tag ⟨.ok, []⟩ t ∧
        t.slot i = { x with
          state := .done
          phase := none
          outcome := some .aborted
          intake := []
          hand := none
          item := none
          closeReason := some .abort
          counters := { x.counters with
            dropped := Nat.min (x.counters.dropped + x.intake.length) (2 ^ 48 - 1) }
          summary := some ⟨.aborted, some .abort, x.recipe, x.counters.chunked, x.records,
            x.counters.newChunks, x.counters.dupChunks⟩ } ∧
        t.dix.lookups = s.dix.lookups.filter (fun l => l.slot ≠ i) ∧
        t.dix.verifies = s.dix.verifies.set i none ∧ t.dix.index = s.dix.index ∧
        t.dge.current ≠ some i ∧ t.recordBuffer i = ⟨[], 0⟩ ∧
        (∀ r, assocGet t.rcu.catalog x.recipe = some r →
          r.job = some .abort ∧ r.closeReason = some .abort ∧ (r.state = .queued ∨ r.state = .releasing)) ∧
        (∀ r₀ r, assocGet s.rcu.catalog x.recipe = some r₀ → assocGet t.rcu.catalog x.recipe = some r →
          r = { r₀ with
            recordCount := x.records - held.length
            byteTotal := x.counters.chunked - (held.map Record.length).sum
            blockCount := r₀.blocks.length
            closeReason := some .abort
            state := r.state
            job := some .abort }) ∧
        (∀ r₀, assocGet s.rcu.catalog x.recipe = some r₀ →
          ∃ u : State,
            (let v := startWalks u
            t = dgeChoose (if v.dge.current = some i then { v with dge.current := none } else v)) ∧
            u.slots = s.slots.set i (t.slot i) ∧
            (∀ q e, assocGet s.plu.map q = some e → assocGet u.plu.map q = some { e with
              count := if e.count < 4294967295 then e.count - (held.map Record.seq).count q -
                (if (s.dix.verifies[i]).map Verify.seq = some q then 1 else 0) else e.count }) ∧
            (∀ q, assocGet s.plu.map q = none → assocGet u.plu.map q = none) ∧
            u.plu = { s.plu with map := u.plu.map } ∧
            (∀ b, u.bank b = { s.bank b with readQueue := (s.bank b).readQueue.filter (fun j =>
              s.dix.verifies[i].all (fun v => j.who ≠ .verify i v.ticket)) }) ∧
            u.stc.lastFault = s.stc.lastFault ∧
            u.rcu = { s.rcu with
              buffers := s.rcu.buffers.set i ⟨[], 0⟩
              catalog := assocSet s.rcu.catalog x.recipe { r₀ with
                recordCount := x.records - held.length
                byteTotal := x.counters.chunked - (held.map Record.length).sum
                blockCount := r₀.blocks.length
                closeReason := some .abort
                state := .queued
                job := some .abort }
              releaseQueue := s.rcu.releaseQueue ++ [x.recipe] } ∧
            u.dix = { s.dix with
              lookups := s.dix.lookups.filter (fun l => l.slot ≠ i)
              verifies := s.dix.verifies.set i none } ∧
            u.rpu = (raise (slotNotice .streamDone i) s).rpu ∧ u.lif = (raise (slotNotice .streamDone i) s).lif ∧
            u.dge = s.dge ∧ u.rtn = s.rtn ∧ u.cfg = s.cfg ∧ u.lines = s.lines ∧ u.store = s.store ∧
            u.draws = s.draws ∧ u.pending = s.pending) ∧
        (s.rcu.walk ≠ none ∨ s.cfg.mode = .stopping ∨ assocGet s.rcu.catalog x.recipe = none →
          (∀ q e, assocGet s.plu.map q = some e → assocGet t.plu.map q = some { e with
            count := if e.count < 4294967295 then e.count - (held.map Record.seq).count q -
              (if (s.dix.verifies[i]).map Verify.seq = some q then 1 else 0) else e.count }) ∧
          (∀ b, t.bank b = { s.bank b with readQueue := (s.bank b).readQueue.filter (fun j =>
            s.dix.verifies[i].all (fun v => j.who ≠ .verify i v.ticket)) }) ∧
          (∀ r, assocGet s.rcu.catalog x.recipe = some r →
            t.rcu.releaseQueue = s.rcu.releaseQueue ++ [x.recipe]) ∧
          t.rcu.walk = s.rcu.walk) ∧
        (∀ j, j ≠ i → t.slot j = s.slot j ∨
          (t.dge.current = some j ∧ (s.slot j).phase = some .digestWait ∧
            t.slot j = { s.slot j with phase := some .digesting })) ∧
        (∀ j, j ≠ i → t.recordBuffer j = s.recordBuffer j) ∧
        (kindEnabled s.rpu.mask .streamDone = true → slotNotice .streamDone i ∈ t.rpu.notices) ∧
        t.store = s.store ∧ t.rtn = s.rtn ∧ t.cfg = s.cfg ∧ t.lines = s.lines ∧ t.draws = s.draws ∧
        t.pending = s.pending) ∧
    (x.state ≠ .opened → x.state ≠ .draining → request = answer 0x0A#8 tag ⟨.state, []⟩ s)

/-- Retire Stream in DONE: the slot returns to its reset values, its notices leave the set, and its latch is
emptied; nothing else changes. In any other state it is STATE (R25, R175). -/
def Obligations.RetireStreamFreesSlot : Prop :=
  ∀ (tag : BitVec 16) (i : Fin 64) (s : State), Listening s →
    (s.cfg.mode = .operating ∨ s.cfg.mode = .stopping) →
    ((s.slot i).state = .done →
      exec (.retireStream (sound tag (beBytes 1 i.val))) s = answer 0x0B#8 tag ⟨.ok, []⟩
        { s with
          slots := s.slots.set i (State.reset.slot i)
          rpu := { s.rpu with
            notices := s.rpu.notices.filter (fun n => n.slot ≠ some i)
            slotLatches := s.rpu.slotLatches.set i none } }) ∧
    ((s.slot i).state ≠ .done →
      exec (.retireStream (sound tag (beBytes 1 i.val))) s = answer 0x0B#8 tag ⟨.state, []⟩ s)

/-- Set Stream Option in OPEN, DRAINING and COMMITTING sets the one option named and answers its value; an
option or a value outside the table is RANGE, and FREE and DONE are STATE (R26; that the state is judged
first is the model's choice, log 11). -/
def Obligations.SetStreamOptionSetsOneOption : Prop :=
  ∀ (tag : BitVec 16) (i : Fin 64) (option value : Nat) (s : State), Listening s →
    (s.cfg.mode = .operating ∨ s.cfg.mode = .stopping) → option < 256 → value < 65536 →
    let x := s.slot i
    let request := exec (.setStreamOption (sound tag (beBytes 1 i.val ++ beBytes 1 option ++ beBytes 2 value))) s
    let done (y : Slot) := answer 0x0C#8 tag ⟨.ok, beBytes 2 value⟩ (s.withSlot i y)
    (slotAtRest x = true → request = answer 0x0C#8 tag ⟨.state, []⟩ s) ∧
    (slotAtRest x = false →
      (option = 0 → value = 0 → request = done { x with watchOn := false }) ∧
      (option = 0 → value = 1 → request = done { x with watchOn := true }) ∧
      (option = 1 → 1 ≤ value → value ≤ 256 → request = done { x with watchLevel := value }) ∧
      (option = 2 → value = 0 → request = done { x with verifyOverride := .default }) ∧
      (option = 2 → value = 1 → request = done { x with verifyOverride := .on }) ∧
      (option = 2 → value = 2 → request = done { x with verifyOverride := .off }) ∧
      (2 < option ∨ (option = 0 ∧ 1 < value) ∨ (option = 1 ∧ (value = 0 ∨ 256 < value)) ∨
        (option = 2 ∧ 2 < value) → request = answer 0x0C#8 tag ⟨.range, []⟩ s))

/-! ## Notices and snapshots -/

/-- A raise adds its pair unless the kind is masked off or the pair is already pending, and the addition that
makes an empty set non-empty issues one attention frame; at the end of the action that frame carries the
number of pairs then in the set (R170, R171, R186). -/
def Obligations.RaiseAddsPairAndAttention : Prop :=
  ∀ (n : Notice) (s : State), NoticeLaw s → n.slot.isSome = n.kind.perStream →
    (kindEnabled s.rpu.mask n.kind = false ∨ n ∈ s.rpu.notices → raise n s = s) ∧
    (kindEnabled s.rpu.mask n.kind = true → n ∉ s.rpu.notices →
      (∀ m, m ∈ (raise n s).rpu.notices ↔ m = n ∨ m ∈ s.rpu.notices) ∧ NoticeLaw (raise n s) ∧
      (raise n s).lif.tx = s.lif.tx ++ (if s.rpu.notices = [] then [.attention none] else []) ∧
      raise n s = { s with rpu.notices := (raise n s).rpu.notices, lif.tx := (raise n s).lif.tx }) ∧
    (∀ k t, TxFrame.attention k ∈ t → k = none →
      .attention (some s.rpu.notices.length) ∈ (endAction { s with lif.tx := t }).lif.tx)

/-- Take Notice removes the pending pair of the lowest rank, and of the lowest slot within a rank, and
answers it with its detail and the "more pending" flag; with an empty set it answers NONE and changes nothing.
Each kind's detail holds the fields of 11.6, in their order, widths and codes, as the block concerned holds them
when the notice is taken, and has the length given there (R27, R74, R173, R174; a DONE slot always holds a summary,
and a slot without one, which no run reaches with this notice pending, shows 0 in its fields). -/
def Obligations.TakeNoticeTakesLowestRank : Prop :=
  ∀ (tag : BitVec 16) (s : State), Listening s → NoticeLaw s →
    (s.rpu.notices = [] →
      exec (.takeNotice (sound tag [])) s =
        answer 0x0D#8 tag ⟨.ok, [0x00#8, 0x00#8, 0x00#8, 0x00#8, 0x00#8]⟩ s) ∧
    (s.rpu.notices ≠ [] →
      ∃ n, n ∈ s.rpu.notices ∧
        (∀ m ∈ s.rpu.notices, n.kind.rank < m.kind.rank ∨
          (n.kind = m.kind ∧ n.slot.elim 0 Fin.val ≤ m.slot.elim 0 Fin.val)) ∧
        (noticeDetail n s).length = (match n.kind with
          | .storeFault => 2
          | .storeFull => 5
          | .streamStalled => 3
          | .streamDone => 94
          | .collision => 6
          | .storeLow => 4
          | .streamSpace => 5
          | .rebuildDone => 13
          | .releasesIdle => 14
          | .holdWritten => 4
          | .linkError => 6) ∧
        (let x := s.slot (n.slot.getD 0)
        let free := (s.plu.segments.filter (fun e => e.2 = .free)).length
        let six (cs : List Nat) : List Byte := cs.flatMap (beBytes 6)
        let c := x.counters
        noticeDetail n s = (match n.kind with
          | .storeFault => (match s.stc.lastFault with
            | none => [0xFF#8, 0x00#8]
            | some (b, k) => [BitVec.ofNat 8 b.val, (match k with
              | .program => 0x01#8
              | .read => 0x02#8
              | .erase => 0x03#8)])
          | .storeFull =>
            beBytes 2 free ++ beBytes 2 (free - s.cfg.inForce[23]) ++ beBytes 1 s.plu.waitList.length
          | .streamStalled => [stateByte x.state, phaseByte x.phase, itemByte x.item]
          | .streamDone => (match x.summary with
            | some m => [outcomeByte (some m.outcome), closeByte m.reason] ++ beBytes 4 m.recipe ++
              beBytes 6 m.bytesChunked ++ beBytes 4 m.records ++ beBytes 6 m.newChunks ++ beBytes 6 m.dupChunks
            | none => List.replicate 28 0x00#8) ++
            six [c.received, c.chunked, c.overrun, c.dropped, c.chunks, c.newChunks, c.dupChunks, c.newBytes,
              c.dupBytes, c.unindexed, c.collisions]
          | .collision => beBytes 6 s.dix.counters.collisions
          | .storeLow => beBytes 2 (free - s.cfg.inForce[23]) ++ beBytes 2 s.cfg.inForce[22]
          | .streamSpace => [stateByte x.state] ++ beBytes 4 (262144 - x.intake.length)
          | .rebuildDone => [resultByte s.cfg.result] ++ six [s.cfg.counters.recipesLive, s.cfg.counters.recipesDamaged]
          | .releasesIdle => six [s.rcu.counters.released, s.rcu.counters.abortJobs] ++
            beBytes 2 s.rcu.releaseQueue.length
          | .holdWritten => beBytes 2 s.rtn.memory.day ++ [if s.rtn.memory.freeze then 0x01#8 else 0x00#8,
              (match s.rtn.inFlight with
              | none => 0x00#8
              | some (.day _) => 0x01#8
              | some (.hold _ _) => 0x02#8
              | some (.unhold _) => 0x03#8
              | some .freeze => 0x04#8
              | some .unfreeze => 0x05#8)]
          | .linkError => beBytes 6 s.lif.linkErrors)) ∧
        exec (.takeNotice (sound tag [])) s =
          answer 0x0D#8 tag
            ⟨.ok, beBytes 1 n.kind.rank ++ beBytes 1 (match n.slot with
                | some i => i.val
                | none => 0xFF) ++
              (if s.rpu.notices.length = 1 then [0x00#8] else [0x01#8]) ++
              beBytes 2 (noticeDetail n s).length ++ noticeDetail n s⟩
            { s with rpu.notices := s.rpu.notices.filter (fun m => m ≠ n) })

/-- Set Notice Mask puts the eleven enables in force, removes every pending pair of a kind turned off, and
answers the mask and the number removed; a field with any of bits 11 to 15 set is RANGE and changes nothing. A
raise of a kind turned off is lost whichever of the two is taken first (R172). -/
def Obligations.SetNoticeMaskRemovesMaskedPairs : Prop :=
  ∀ (tag : BitVec 16) (v : Nat) (s : State), Listening s → v < 65536 →
    (v < 2048 →
      exec (.setNoticeMask (sound tag (beBytes 2 v))) s =
        answer 0x0E#8 tag
          ⟨.ok, beBytes 2 v ++ beBytes 1 (s.rpu.notices.filter (fun n => !v.testBit (n.kind.rank - 1))).length⟩
          { s with rpu := { s.rpu with
            mask := BitVec.ofNat 11 v
            notices := s.rpu.notices.filter (fun n => v.testBit (n.kind.rank - 1)) } }) ∧
    (2048 ≤ v → exec (.setNoticeMask (sound tag (beBytes 2 v))) s = answer 0x0E#8 tag ⟨.range, []⟩ s) ∧
    ∀ n : Notice, v < 2048 → v.testBit (n.kind.rank - 1) = false →
      (∀ t, exec (.setNoticeMask (sound tag (beBytes 2 v))) (raise n s) = .next t → n ∉ t.rpu.notices) ∧
      (∀ t, exec (.setNoticeMask (sound tag (beBytes 2 v))) s = .next t → raise n t = t ∧ n ∉ t.rpu.notices)

/-- Take Snapshot fills each empty latch named with a capture of the state as it stands, keeps a full one,
and touches no other; its reply names each item once, the slots in ascending order and then the device, with the
word captured or kept. A device flag above 1 or a slot above 63 is RANGE and changes nothing (R177, R178; O27 lists
the 48 device counters). -/
def Obligations.TakeSnapshotFillsEmptyLatches : Prop :=
  ∀ (tag : BitVec 16) (device : Byte) (named : List Byte) (s : State), Listening s → named.length ≤ 64 →
    let request := exec (.takeSnapshot (sound tag (device :: named))) s
    ((1 < device.toNat ∨ ∃ b ∈ named, 63 < b.toNat) → request = answer 0x0F#8 tag ⟨.range, []⟩ s) ∧
    (device.toNat ≤ 1 → (∀ b ∈ named, b.toNat ≤ 63) →
      ∃ t body, request = answer 0x0F#8 tag ⟨.ok, body⟩ t ∧
        t = { s with rpu.slotLatches := t.rpu.slotLatches, rpu.deviceLatch := t.rpu.deviceLatch } ∧
        (∀ i : Fin 64, t.rpu.slotLatches[i] =
          if (∃ b ∈ named, b.toNat = i.val) ∧ s.rpu.slotLatches[i] = none then
            some ⟨s.cfg.mode, (s.slot i).state, (s.slot i).phase, (s.slot i).outcome, (s.slot i).closeReason,
              (s.slot i).item, (s.slot i).records, 262144 - (s.slot i).intake.length, (s.slot i).counters⟩
          else s.rpu.slotLatches[i]) ∧
        t.rpu.deviceLatch =
          (if device.toNat = 1 ∧ s.rpu.deviceLatch = none then
            some ⟨s.cfg.mode, s.cfg.result, s.rpu.notices.length, deviceCounters s⟩
          else s.rpu.deviceLatch) ∧
        (deviceCounters s).length = 48 ∧
        (let slots := (List.finRange 64).filter (fun i => named.any (fun b => b.toNat == i.val))
        let word (empty : Bool) : Byte := if empty then 0x01#8 else 0x02#8
        body = [BitVec.ofNat 8 (slots.length + device.toNat)] ++
          slots.flatMap (fun i => [BitVec.ofNat 8 i.val, word s.rpu.slotLatches[i].isNone]) ++
          (if device.toNat = 1 then [0xFF#8, word s.rpu.deviceLatch.isNone] else [])))

/-- Read Snapshot of a full latch answers its capture and empties it; of an empty latch it answers the live
values and changes nothing; a slot above 63 that is not FFh is RANGE. The reply holds the fields of 11.6 in their
order, widths and codes, numbers most significant byte first: of a slot its state and its eleven counters, and of
the device the 48 counters by block, the fault counts bank by bank (R27, R177, R179). -/
def Obligations.ReadSnapshotEmptiesLatch : Prop :=
  ∀ (tag : BitVec 16) (s : State), Listening s →
    (∀ i : Fin 64, ∀ c, s.rpu.slotLatches[i] = some c →
      exec (.readSnapshot (sound tag (beBytes 1 i.val))) s =
        answer 0x10#8 tag ⟨.ok, slotCaptureBody true i c⟩
          { s with rpu.slotLatches := s.rpu.slotLatches.set i none }) ∧
    (∀ i : Fin 64, s.rpu.slotLatches[i] = none →
      exec (.readSnapshot (sound tag (beBytes 1 i.val))) s =
        answer 0x10#8 tag ⟨.ok, slotCaptureBody false i (captureSlot s i)⟩ s) ∧
    (∀ c, s.rpu.deviceLatch = some c →
      exec (.readSnapshot (sound tag [0xFF#8])) s =
        answer 0x10#8 tag ⟨.ok, deviceCaptureBody true c⟩ { s with rpu.deviceLatch := none }) ∧
    (s.rpu.deviceLatch = none →
      exec (.readSnapshot (sound tag [0xFF#8])) s =
        answer 0x10#8 tag ⟨.ok, deviceCaptureBody false (captureDevice s)⟩ s) ∧
    (∀ n, 63 < n → n < 255 →
      exec (.readSnapshot (sound tag (beBytes 1 n))) s = answer 0x10#8 tag ⟨.range, []⟩ s) ∧
    (∀ (latched : Bool) (i : Fin 64) (c : SlotCapture), (slotCaptureBody latched i c).length = 82) ∧
    (∀ latched : Bool, (deviceCaptureBody latched (captureDevice s)).length = 293) ∧
    (∀ n v k : Nat, k < n → (beBytes n v)[k]? = some (BitVec.ofNat 8 (v / 256 ^ (n - 1 - k)))) ∧
    (∀ i : Fin 64, captureSlot s i = ⟨s.cfg.mode, (s.slot i).state, (s.slot i).phase, (s.slot i).outcome,
      (s.slot i).closeReason, (s.slot i).item, (s.slot i).records, 262144 - (s.slot i).intake.length,
      (s.slot i).counters⟩) ∧
    (∀ (latched : Bool) (i : Fin 64) (c : SlotCapture),
      let n := c.counters
      slotCaptureBody latched i c =
        [if latched then 0x01#8 else 0x02#8, BitVec.ofNat 8 i.val, modeByte c.mode, stateByte c.state,
          phaseByte c.phase, outcomeByte c.outcome, closeByte c.closeReason, itemByte c.item] ++
        beBytes 4 c.records ++ beBytes 4 c.freeSpace ++
        ([n.received, n.chunked, n.overrun, n.dropped, n.chunks, n.newChunks, n.dupChunks, n.newBytes, n.dupBytes,
          n.unindexed, n.collisions]).flatMap (beBytes 6)) ∧
    captureDevice s = ⟨s.cfg.mode, s.cfg.result, s.rpu.notices.length, deviceCounters s⟩ ∧
    (∀ (latched : Bool) (c : DeviceCapture),
      deviceCaptureBody latched c =
        [if latched then 0x01#8 else 0x02#8, 0xFF#8, modeByte c.mode, resultByte c.result,
          BitVec.ofNat 8 c.pairs] ++ c.counters.flatMap (beBytes 6)) ∧
    (let d := s.dix.counters
    let u := s.rcu.counters
    let w := s.rtn.counters
    let r := s.rcl.counters
    let g := s.cfg.counters
    let faults (b : Fin 4) : List Nat :=
      [(s.bank b).faults.program, (s.bank b).faults.read, (s.bank b).faults.erase]
    deviceCounters s =
      [d.lookups, d.hits, d.misses, d.staleHits, d.evictions, d.unindexed, d.collisions, d.verifyFaults] ++
      [u.committed, u.released, u.abortJobs, u.walksReturned, u.walkReadFaults, u.leaked] ++
      [w.writes, w.scans, w.expired, w.custodyRefusals] ++
      [r.made, r.refused, r.creditsSpent, r.erasesOk, r.erasesFailed] ++
      [g.slabsValid, g.slabsTorn, g.slabsBlank, g.segmentsClosed, g.segmentsFree, g.segmentsQueued, g.leftOut,
        g.headsFound, g.headsExpired, g.headsSuperseded, g.recipesLive, g.recipesDamaged] ++
      (faults 0 ++ faults 1 ++ faults 2 ++ faults 3) ++ [s.lif.linkErrors])

/-! ## Retention -/

/-- The retention requests judge range, then a write in flight, and then their own case. Set Day refuses a
backward day, starts nothing for the day in force, and otherwise starts a DAY write of the day asked for or of
seven days ahead, whichever is smaller. Set Hold keeps the start day of a branch already held and otherwise
starts a HOLD write with the day in force; Clear Hold starts an UNHOLD write for a held branch. Set Freeze and
Clear Freeze start their writes where the freeze does not stand as asked. With the freeze set Clear Hold needs
CUSTODY, and Clear Freeze always does: without it they are refused and counted, whether or not there is
anything to clear (R127, R129, R136, R138, R139, R140). -/
def Obligations.RetentionRequestsStartWrites : Prop :=
  (∀ (tag : BitVec 16) (d : Nat) (s : State), Listening s → d < 2 ^ 32 →
    let day := s.rtn.memory.day
    let request := exec (.setDay (sound tag (beBytes 4 d))) s
    (65535 < d → request = answer 0x11#8 tag ⟨.range, []⟩ s) ∧
    (d ≤ 65535 → s.rtn.inFlight ≠ none → request = answer 0x11#8 tag ⟨.busy, []⟩ s) ∧
    (d ≤ 65535 → s.rtn.inFlight = none →
      (d < day → request = answer 0x11#8 tag ⟨.backward, []⟩ s) ∧
      (d = day → request = answer 0x11#8 tag ⟨.ok, [0x00#8] ++ beBytes 2 day⟩ s) ∧
      (day < d → d ≤ day + 7 → request = answer 0x11#8 tag ⟨.ok, [0x01#8] ++ beBytes 2 d⟩
        { s with rtn.inFlight := some (.day d) }) ∧
      (day + 7 < d → request = answer 0x11#8 tag ⟨.ok, [0x01#8] ++ beBytes 2 (day + 7)⟩
        { s with rtn.inFlight := some (.day (day + 7)) }))) ∧
  (∀ (tag : BitVec 16) (b : Nat) (s : State), Listening s → b < 65536 →
    let set := exec (.setHold (sound tag (beBytes 2 b))) s
    let clear := exec (.clearHold (sound tag (beBytes 2 b))) s
    (1023 < b → set = answer 0x13#8 tag ⟨.range, []⟩ s ∧ clear = answer 0x14#8 tag ⟨.range, []⟩ s) ∧
    (b ≤ 1023 → s.rtn.inFlight ≠ none →
      set = answer 0x13#8 tag ⟨.busy, []⟩ s ∧ clear = answer 0x14#8 tag ⟨.busy, []⟩ s) ∧
    (b ≤ 1023 → s.rtn.inFlight = none →
      (∀ start, assocGet s.rtn.memory.holds b = some start →
        set = answer 0x13#8 tag ⟨.ok, [0x00#8] ++ beBytes 2 start⟩ s) ∧
      (assocGet s.rtn.memory.holds b = none →
        set = answer 0x13#8 tag ⟨.ok, [0x01#8] ++ beBytes 2 s.rtn.memory.day⟩
          { s with rtn.inFlight := some (.hold b s.rtn.memory.day) }) ∧
      (s.rtn.memory.freeze = true → s.lines.custody = false →
        clear = answer 0x14#8 tag ⟨.custody, []⟩
          { s with rtn.counters.custodyRefusals := Nat.min (s.rtn.counters.custodyRefusals + 1) (2 ^ 48 - 1) }) ∧
      (s.rtn.memory.freeze = false ∨ s.lines.custody = true →
        (assocGet s.rtn.memory.holds b = none → clear = answer 0x14#8 tag ⟨.ok, [0x00#8]⟩ s) ∧
        (assocGet s.rtn.memory.holds b ≠ none → clear = answer 0x14#8 tag ⟨.ok, [0x01#8]⟩
          { s with rtn.inFlight := some (.unhold b) })))) ∧
  ∀ (tag : BitVec 16) (s : State), Listening s →
    let set := exec (.setFreeze (sound tag [])) s
    let clear := exec (.clearFreeze (sound tag [])) s
    (s.rtn.inFlight ≠ none →
      set = answer 0x15#8 tag ⟨.busy, []⟩ s ∧ clear = answer 0x16#8 tag ⟨.busy, []⟩ s) ∧
    (s.rtn.inFlight = none →
      (s.rtn.memory.freeze = true → set = answer 0x15#8 tag ⟨.ok, [0x00#8]⟩ s) ∧
      (s.rtn.memory.freeze = false →
        set = answer 0x15#8 tag ⟨.ok, [0x01#8]⟩ { s with rtn.inFlight := some .freeze }) ∧
      (s.lines.custody = false →
        clear = answer 0x16#8 tag ⟨.custody, []⟩
          { s with rtn.counters.custodyRefusals := Nat.min (s.rtn.counters.custodyRefusals + 1) (2 ^ 48 - 1) }) ∧
      (s.lines.custody = true →
        (s.rtn.memory.freeze = false → clear = answer 0x16#8 tag ⟨.ok, [0x00#8]⟩ s) ∧
        (s.rtn.memory.freeze = true →
          clear = answer 0x16#8 tag ⟨.ok, [0x01#8]⟩ { s with rtn.inFlight := some .unfreeze })))

/-- Read Retention answers the values in force, the CUSTODY level, the write in flight with its branch and
value, and the holds of a run of branches clamped to branch 1,023; a first branch above 1,023 is RANGE. It
changes nothing (R141; the value bytes of a FREEZE, UNFREEZE or UNHOLD write are the model's, log 12). -/
def Obligations.ReadRetentionReportsValuesInForce : Prop :=
  ∀ (tag : BitVec 16) (first count : Nat) (s : State), Listening s → first < 65536 → count < 256 →
    let n := Nat.min (if count = 0 then 256 else count) (1024 - first)
    (1023 < first →
      exec (.readRetention (sound tag (beBytes 2 first ++ beBytes 1 count))) s =
        answer 0x12#8 tag ⟨.range, []⟩ s) ∧
    (first ≤ 1023 →
      exec (.readRetention (sound tag (beBytes 2 first ++ beBytes 1 count))) s =
        answer 0x12#8 tag
          ⟨.ok, beBytes 2 s.rtn.memory.day ++ (if s.rtn.memory.freeze then [0x01#8] else [0x00#8]) ++
            (if s.lines.custody then [0x01#8] else [0x00#8]) ++
            (match s.rtn.inFlight with
              | none => [0x00#8] ++ beBytes 2 0 ++ beBytes 2 0
              | some (.day d) => [0x01#8] ++ beBytes 2 0 ++ beBytes 2 d
              | some (.hold b start) => [0x02#8] ++ beBytes 2 b ++ beBytes 2 start
              | some (.unhold b) => [0x03#8] ++ beBytes 2 b ++ beBytes 2 0
              | some .freeze => [0x04#8] ++ beBytes 2 0 ++ beBytes 2 1
              | some .unfreeze => [0x05#8] ++ beBytes 2 0 ++ beBytes 2 0) ++
            (if s.rtn.scanOwed then [0x01#8] else [0x00#8]) ++ beBytes 2 first ++ beBytes 2 n ++
            (List.range n).flatMap (fun k => match assocGet s.rtn.memory.holds (first + k) with
              | some start => [0x01#8] ++ beBytes 2 start
              | none => [0x00#8] ++ beBytes 2 0)⟩ s)

/-- A retention write completes: its value is in force, no write is in flight, the write is counted and
HOLD_WRITTEN raised. Outside OPERATING and REBUILDING, and for HOLD, FREEZE and UNFREEZE, nothing else changes;
in OPERATING a DAY then runs a full expiry scan, and an UNHOLD one of its branch (O31 says what a scan does);
in REBUILDING a DAY or an UNHOLD sets the scan owed flag; while RST# is asserted the count and the notice are
owed instead (R126, R128, R130, R133, R134, R137, R140, R142). -/
def Obligations.RetentionWriteTakesForce : Prop :=
  ∀ (w : RetentionWrite) (s : State), s.rtn.inFlight = some w →
    let m : RetentionMemory := match w with
      | .day d => { s.rtn.memory with day := d }
      | .hold b start => { s.rtn.memory with holds := assocSet s.rtn.memory.holds b start }
      | .unhold b => { s.rtn.memory with holds := assocErase s.rtn.memory.holds b }
      | .freeze => { s.rtn.memory with freeze := true }
      | .unfreeze => { s.rtn.memory with freeze := false }
    let written := raise (deviceNotice .holdWritten) { s with
      rtn := { s.rtn with
        memory := m
        inFlight := none
        counters := { s.rtn.counters with writes := Nat.min (s.rtn.counters.writes + 1) (2 ^ 48 - 1) } } }
    let scans : Prop := (∃ d, w = .day d) ∨ ∃ b, w = .unhold b
    (s.lines.rst = false → (¬ scans ∨ s.cfg.mode = .standby ∨ s.cfg.mode = .stopping) →
      exec .retentionWriteComplete s = act written) ∧
    (s.lines.rst = false → s.cfg.mode = .operating →
      (∀ d, w = .day d → exec .retentionWriteComplete s = act (expiryScan none written)) ∧
      (∀ b, w = .unhold b → exec .retentionWriteComplete s = act (expiryScan (some b) written))) ∧
    (s.lines.rst = false → scans → s.cfg.mode = .rebuilding →
      exec .retentionWriteComplete s = act { written with rtn.scanOwed := true }) ∧
    (s.lines.rst = true →
      exec .retentionWriteComplete s =
        act { s with rtn := { s.rtn with memory := m, inFlight := none, reportOwed := true } })

/-- A DAY or an UNHOLD completing in OPERATING runs an expiry scan against the values then in force: every LIVE
entry that has expired and is not protected, of the branch released where it is an UNHOLD, becomes QUEUED with
job RELEASE and joins the tail of the release queue in ascending recipe number order; the scan and its entries
are counted, and every other entry stands as it was. The write is counted and HOLD_WRITTEN raised. With no walk running the head of the queue is then taken
in the same action (O46 says how walks start), and with one running nothing more happens (R112, R130, R131,
R132, R133, R137, R142). -/
def Obligations.ExpiryScanQueuesExpired : Prop :=
  (∀ (branch : Option Nat) (s : State), CatalogLaw s →
    let m := s.rtn.memory
    let up (n k : Nat) : Nat := Nat.min (n + k) (2 ^ 48 - 1)
    let due (r : Recipe) : Prop := r.state = .live ∧ r.expiryDay < m.day ∧
      (∀ start, assocGet m.holds r.branch = some start → r.expiryDay < start) ∧
      (∀ b, branch = some b → r.branch = b)
    ∃ (queued : List Nat) (catalog : Assoc Recipe), queued.Pairwise (· < ·) ∧
      (∀ n, n ∈ queued ↔ ∃ r, assocGet s.rcu.catalog n = some r ∧ due r) ∧
      (∀ n, (assocGet s.rcu.catalog n = none → assocGet catalog n = none) ∧
        ∀ r, assocGet s.rcu.catalog n = some r →
          (due r → assocGet catalog n = some { r with state := .queued, job := some .release }) ∧
          (¬ due r → assocGet catalog n = some r)) ∧
      expiryScan branch s = startWalks { s with
        rtn.counters := { s.rtn.counters with
          scans := up s.rtn.counters.scans 1, expired := up s.rtn.counters.expired queued.length }
        rcu.catalog := catalog
        rcu.releaseQueue := s.rcu.releaseQueue ++ queued }) ∧
  ∀ (w : RetentionWrite) (s : State), s.rtn.inFlight = some w → s.lines.rst = false →
    s.cfg.mode = .operating → CatalogLaw s →
    ((∃ d, w = .day d) ∨ ∃ b, w = .unhold b) →
    ∃ t, exec .retentionWriteComplete s = act (startWalks t) ∧ (s.rcu.walk ≠ none → startWalks t = t) ∧
      let m := t.rtn.memory
      let due (r : Recipe) : Prop := r.state = .live ∧ r.expiryDay < m.day ∧
        (∀ start, assocGet m.holds r.branch = some start → r.expiryDay < start) ∧
        (∀ b, w = .unhold b → r.branch = b)
      m = applyWrite w s.rtn.memory ∧
      (∃ queued : List Nat, t.rcu.releaseQueue = s.rcu.releaseQueue ++ queued ∧ queued.Pairwise (· < ·) ∧
        (∀ n, n ∈ queued ↔ ∃ r, assocGet s.rcu.catalog n = some r ∧ due r) ∧
        t.rtn.counters.expired = Nat.min (s.rtn.counters.expired + queued.length) (2 ^ 48 - 1)) ∧
      t.rtn.counters.scans = Nat.min (s.rtn.counters.scans + 1) (2 ^ 48 - 1) ∧
      t.rtn = { s.rtn with
        memory := m
        inFlight := none
        counters := { s.rtn.counters with
          writes := Nat.min (s.rtn.counters.writes + 1) (2 ^ 48 - 1)
          scans := t.rtn.counters.scans
          expired := t.rtn.counters.expired } } ∧
      t.rpu = (raise (deviceNotice .holdWritten) s).rpu ∧ t.lif = (raise (deviceNotice .holdWritten) s).lif ∧
      (∀ n r, assocGet s.rcu.catalog n = some r →
        (due r → assocGet t.rcu.catalog n = some { r with state := .queued, job := some .release }) ∧
        (¬ due r → assocGet t.rcu.catalog n = some r)) ∧
      t.rcu = { s.rcu with catalog := t.rcu.catalog, releaseQueue := t.rcu.releaseQueue } ∧
      t.plu = s.plu ∧ t.store = s.store ∧ t.slots = s.slots ∧ t.stc = s.stc ∧ t.dix = s.dix ∧ t.cfg = s.cfg ∧
      t.dge = s.dge ∧ t.rcl = s.rcl ∧ t.lines = s.lines ∧ t.draws = s.draws ∧ t.pending = s.pending

/-! ## Recipes and restore reads -/

/-- List Recipes answers the first 32 entries at or above a number, of one branch or of all, in ascending
number order, and whether more follow; a branch above 1,023 is RANGE. Read Recipe Head answers every field of
an entry, and GONE where there is none. Both are NOT_READY outside OPERATING and change nothing (R119, R120,
R121). -/
def Obligations.CatalogRequestsAnswerEntries : Prop :=
  ∀ (tag : BitVec 16) (n sel : Nat) (s : State), Listening s → n < 2 ^ 32 → sel < 65536 →
    let list := exec (.listRecipes (sound tag (beBytes 4 n ++ beBytes 2 sel))) s
    let head := exec (.readRecipeHead (sound tag (beBytes 4 n))) s
    let found := s.rcu.catalog.filter (fun e => n ≤ e.1 ∧ (sel = 65535 ∨ e.2.branch = sel))
    let flag (b : Bool) : List Byte := if b then [0x01#8] else [0x00#8]
    (CatalogLaw s → (found.map Prod.fst).Pairwise (· < ·)) ∧
    (s.cfg.mode ≠ .operating →
      list = answer 0x17#8 tag ⟨.notReady, []⟩ s ∧ head = answer 0x18#8 tag ⟨.notReady, []⟩ s) ∧
    (s.cfg.mode = .operating →
      (1023 < sel → sel ≠ 65535 → list = answer 0x17#8 tag ⟨.range, []⟩ s) ∧
      (sel ≤ 1023 ∨ sel = 65535 →
        list = answer 0x17#8 tag
          ⟨.ok, beBytes 1 (Nat.min found.length 32) ++ flag (32 < found.length) ++
            (found.take 32).flatMap (fun e => beBytes 4 e.1 ++ beBytes 2 e.2.branch ++
              beBytes 1 e.2.state.code ++ beBytes 2 e.2.expiryDay ++ beBytes 4 e.2.recordCount ++
              beBytes 6 e.2.byteTotal ++ beBytes 1 (closeCode e.2.closeReason) ++ flag e.2.damaged)⟩ s) ∧
      (assocGet s.rcu.catalog n = none → head = answer 0x18#8 tag ⟨.gone, []⟩ s) ∧
      (∀ r, assocGet s.rcu.catalog n = some r →
        head = answer 0x18#8 tag
          ⟨.ok, beBytes 4 n ++ beBytes 2 r.branch ++ beBytes 1 r.profileNo ++ beBytes 1 (closeCode r.closeReason) ++
            r.label ++ beBytes 2 r.openDay ++ beBytes 2 r.retentionDays ++ beBytes 2 r.expiryDay ++
            beBytes 2 r.blockCount ++ beBytes 4 r.recordCount ++ beBytes 6 r.byteTotal ++
            (match r.head with
              | some l => [0x01#8] ++ beBytes 4 l.seq ++ beBytes 4 l.offset
              | none => [0x00#8] ++ beBytes 4 0 ++ beBytes 4 0) ++
            beBytes 1 r.state.code ++ beBytes 1 (jobCode r.job) ++ flag r.damaged ++
            beBytes 2 r.blocks.length ++ r.blocks.flatMap (fun l => beBytes 4 l.seq ++ beBytes 4 l.offset)⟩ s))

/-- Read Recipe and Read Chunk once their own checks have passed: a sequence that the slab map does not hold
is GONE and a full table of read slots BUSY; otherwise the lowest free read slot is taken, a buffered slab is
copied and answered at once, and a stored one is read at its bank under the slot. Read Recipe's checks run in
the order of R122 and its count is clamped to the recipe, to the block and to 186; Read Chunk judges its run
first. The completion of a slot's read appends its reply and frees the slot, and a read failure answers
STORE_ERROR and is recorded at the bank (R82, R97, R119, R122, R123, R124, R185). -/
def Obligations.RestoreReadsAnswerUnderReadSlots : Prop :=
  let served (s : State) (out : Out) (kind : Byte) (tag : BitVec 16) (q : ReadRequest) (top : List Byte)
      (seq off len : Nat) : Prop :=
    (s.plu.mapped seq = false → out = answerRestore kind tag ⟨.gone, []⟩ s) ∧
    (s.plu.mapped seq = true → (∀ i : Fin 16, s.lif.reads[i] ≠ none) →
      out = answerRestore kind tag ⟨.busy, []⟩ s) ∧
    (∀ i : Fin 16, s.plu.mapped seq = true → s.lif.reads[i] = none → (∀ j < i, s.lif.reads[j] ≠ none) →
      (∀ b, s.plu.bufferOf seq = some b →
        out = answerRestore kind tag ⟨.ok, top ++ ((bufferImage b).drop off).take len⟩ s) ∧
      (∀ p, s.plu.bufferOf seq = none → s.plu.placeOf seq = some p →
        out = act { queueRead ⟨.restore i, p, off, len⟩ s with
          lif := { s.lif with reads := s.lif.reads.set i (some ⟨tag, q⟩) } }))
  (∀ (tag : BitVec 16) (n first count : Nat) (s : State), Listening s →
    n < 2 ^ 32 → first < 2 ^ 32 → count < 256 →
    let read := exec (.readRecipe (sound tag (beBytes 4 n ++ beBytes 4 first ++ beBytes 1 count))) s
    let refused (st : Status) : Prop := read = answerRestore 0x19#8 tag ⟨st, []⟩ s
    (s.cfg.mode ≠ .operating → refused .notReady) ∧
    (s.cfg.mode = .operating → assocGet s.rcu.catalog n = none → refused .gone) ∧
    (∀ r, s.cfg.mode = .operating → assocGet s.rcu.catalog n = some r →
      (r.state = .releasing → refused .gone) ∧
      (r.state = .opened ∨ r.state = .committing → refused .state) ∧
      (r.state = .live ∨ r.state = .queued →
        (r.recordCount ≤ first → refused .range) ∧
        (∀ l, first < r.recordCount → r.blocks[first / 4096]? = some l →
          let inBlock := if first / 4096 + 1 < r.blocks.length then 4096
            else r.recordCount - 4096 * (first / 4096)
          let k := [r.recordCount - first, inBlock - first % 4096, 186].foldl Nat.min
            (if count = 0 then 256 else count)
          served s read 0x19#8 tag (.recipe n first k) (beBytes 4 n ++ beBytes 4 first ++ beBytes 1 k) l.seq
            (l.offset + 64 + 44 * (first % 4096)) (44 * k))))) ∧
  (∀ (tag : BitVec 16) (seq off len : Nat) (s : State), Listening s →
    seq < 2 ^ 32 → off < 2 ^ 32 → len < 65536 →
    let read := exec (.readChunk (sound tag (beBytes 4 seq ++ beBytes 4 off ++ beBytes 2 len))) s
    (s.cfg.mode ≠ .operating → read = answerRestore 0x1A#8 tag ⟨.notReady, []⟩ s) ∧
    (s.cfg.mode = .operating → (len = 0 ∨ 8192 < len ∨ 262144 < off + len) →
      read = answerRestore 0x1A#8 tag ⟨.range, []⟩ s) ∧
    (s.cfg.mode = .operating → 1 ≤ len → len ≤ 8192 → off + len ≤ 262144 →
      served s read 0x1A#8 tag .chunk [] seq off len)) ∧
  (∀ (b : Fin 4) (result : OpResult) (i : Fin 16) (p : Place) (off len : Nat) (r : ReadSlot) (s : State),
    (s.bank b).running = some (.read ⟨.restore i, p, off, len⟩) → s.lif.reads[i] = some r →
    let freed := { s with lif.reads := s.lif.reads.set i none }
    let kind : Byte := match r.request with
      | .recipe _ _ _ => 0x19#8
      | .chunk => 0x1A#8
    let top : List Byte := match r.request with
      | .recipe n first k => beBytes 4 n ++ beBytes 4 first ++ beBytes 1 k
      | .chunk => []
    exec (.restoreReadComplete b result) s = act (stoppingCheck (finishBank b (match result with
      | .ok => sendRestoreReply kind r.tag ⟨.ok, top ++ readSlabRun s.store p off len⟩ freed
      | .fail => sendRestoreReply kind r.tag ⟨.storeError, []⟩ (recordFault b .read freed)))))

/-! ## Store Status, Clear Store Faults and Reclaim -/

/-- Store Status is served in every mode, changes nothing, and reports the four banks, the last fault, the
installed and the used segments, and how many segments stand in each state (R98). -/
def Obligations.StoreStatusReportsStore : Prop :=
  ∀ (tag : BitVec 16) (s : State), Listening s →
    let condition : EraseCondition → Nat := fun e => match e with
      | .waiting => 1
      | .running => 2
      | .suspended => 3
    let line (k : Bank) : List Byte :=
      beBytes 1 (match k.held, k.running with
        | some ⟨_, .suspended, _⟩, _ => 4
        | _, none => 0
        | _, some (.program _ _) => 1
        | _, some (.read _) => 2
        | _, some (.erase _) => 3) ++
      (match k.held with
        | some e => beBytes 2 e.segment ++ beBytes 1 (condition e.condition) ++ beBytes 1 e.suspends
        | none => [0xFF#8, 0xFF#8, 0x00#8, 0x00#8]) ++
      beBytes 1 k.readQueue.length ++ beBytes 1 k.programQueue.length ++
      beBytes 1 ((if k.flags.program then 1 else 0) + (if k.flags.read then 2 else 0) +
        (if k.flags.erase then 4 else 0)) ++
      beBytes 6 k.faults.program ++ beBytes 6 k.faults.read ++ beBytes 6 k.faults.erase
    let count (test : SegState → Bool) : List Byte :=
      beBytes 2 (s.plu.segments.filter (fun e => test e.2)).length
    exec (.storeStatus (sound tag [])) s = answer 0x1B#8 tag
      ⟨.ok, line (s.bank 0) ++ line (s.bank 1) ++ line (s.bank 2) ++ line (s.bank 3) ++
        (match s.stc.lastFault with
          | some (b, .program) => beBytes 1 b.val ++ [0x01#8]
          | some (b, .read) => beBytes 1 b.val ++ [0x02#8]
          | some (b, .erase) => beBytes 1 b.val ++ [0x03#8]
          | none => [0xFF#8, 0x00#8]) ++
        beBytes 2 s.cfg.installed ++ beBytes 2 s.cfg.inForce[24] ++
        count (fun x => x = .free) ++ count (fun x => x.isOpen) ++ count (fun x => x = .closed) ++
        count (fun x => x = .condemned) ++ count (fun x => x = .erasing) ++ count (fun x => x = .retired)⟩ s

/-- Clear Store Faults clears the twelve flags and the last fault and answers the flags as they stood; the
counts, the queues, the operations and the notice set are left. A failure taken before it is shown by the
reply and stays counted, one taken after it sets its flag (R99). -/
def Obligations.ClearStoreFaultsClearsFlags : Prop :=
  ∀ (tag : BitVec 16) (s : State), Listening s →
    let flags (u : State) (b : Fin 4) : List Byte :=
      beBytes 1 (((u.bank b).flags.program).toNat + 2 * ((u.bank b).flags.read).toNat +
        4 * ((u.bank b).flags.erase).toNat)
    let cleared (u : State) : State := { u with stc :=
      ⟨u.stc.banks.map (fun k => { k with flags := ⟨false, false, false⟩ }), none⟩ }
    let flag (k : FaultKind) (f : PerKind Bool) : Bool := match k with
      | .program => f.program
      | .read => f.read
      | .erase => f.erase
    exec (.clearStoreFaults (sound tag [])) s =
      answer 0x1C#8 tag ⟨.ok, flags s 0 ++ flags s 1 ++ flags s 2 ++ flags s 3⟩ (cleared s) ∧
    ∀ (b : Fin 4) (k : FaultKind),
      exec (.clearStoreFaults (sound tag [])) (recordFault b k s) =
        answer 0x1C#8 tag
          ⟨.ok, flags (recordFault b k s) 0 ++ flags (recordFault b k s) 1 ++ flags (recordFault b k s) 2 ++
            flags (recordFault b k s) 3⟩ (cleared (recordFault b k s)) ∧
      flag k ((recordFault b k s).bank b).flags = true ∧
      ((cleared (recordFault b k s)).bank b).faults = ((recordFault b k s).bank b).faults ∧
      flag k ((recordFault b k (cleared s)).bank b).flags = true

/-- Reclaim in OPERATING adds its credits, up to 65,535, runs a pass and answers what then stands; in the
other modes it is NOT_READY. A pass leaves every condemn outstanding as it was, issues at a bank that had
none and whose erase flag is clear the first listed candidate of that bank, takes it from the list, and
reserves a credit for each condemn issued while setting 21 stands at 0, never more than are held; with setting
21 at 1 it issues at every such bank that has a candidate, and with setting 21 at 0 at as many of them as there
are free credits, in the order in which their first candidates are listed (R146, R147, R148). -/
def Obligations.ReclaimAddsCreditsAndPasses : Prop :=
  (∀ (tag : BitVec 16) (n : Nat) (s : State), Listening s → n < 256 →
    let held := Nat.min (s.rcl.creditsHeld + if n = 0 then 256 else n) 65535
    let r := ({ s.rcl with creditsHeld := held }).passOver (s.cfg.inForce[21] = 1) s.rcl.candidates
    (s.cfg.mode ≠ .operating →
      exec (.reclaim (sound tag (beBytes 1 n))) s = answer 0x1D#8 tag ⟨.notReady, []⟩ s) ∧
    (s.cfg.mode = .operating →
      exec (.reclaim (sound tag (beBytes 1 n))) s = answer 0x1D#8 tag
        ⟨.ok, beBytes 2 held ++ beBytes 1 r.creditsReserved ++ beBytes 2 r.candidates.length ++
          beBytes 1 ((List.finRange 4).filter (fun b => r.outstanding[b].isSome)).length⟩
        { s with rcl := r })) ∧
  (∀ (automatic : Bool) (r : Rcl),
    let after := r.passOver automatic r.candidates
    let issued : List (Fin 4) :=
      (List.finRange 4).filter (fun b => r.outstanding[b].isNone && after.outstanding[b].isSome)
    (∀ (b : Fin 4) c, r.outstanding[b] = some c → after.outstanding[b] = some c) ∧
    (∀ (b : Fin 4) c, r.outstanding[b] = none → after.outstanding[b] = some c →
      r.eraseFlags[b] = false ∧ c.reserved = !automatic ∧
      (r.candidates.find? (fun x => bankOf x.segment = b)).map (·.segment) = some c.segment) ∧
    after.candidates = r.candidates.filter (fun x => !issued.any (fun b =>
      after.outstanding[b].any (fun c => c.segment == x.segment))) ∧
    after.creditsReserved = r.creditsReserved + (if automatic then 0 else issued.length) ∧
    (r.creditsReserved ≤ r.creditsHeld → after.creditsReserved ≤ r.creditsHeld) ∧
    (∀ b : Fin 4, automatic = true → r.outstanding[b] = none → r.eraseFlags[b] = false →
      (∃ x ∈ r.candidates, bankOf x.segment = b) → after.outstanding[b] ≠ none) ∧
    (let eligible (b : Fin 4) : Bool := r.outstanding[b].isNone && !r.eraseFlags[b] &&
      r.candidates.any (fun x => bankOf x.segment = b)
    automatic = false →
      issued.length = Nat.min (r.creditsHeld - r.creditsReserved) ((List.finRange 4).filter eligible).length ∧
      ∀ b b' : Fin 4, eligible b = true → after.outstanding[b] = none → b' ∈ issued →
        (r.candidates.find? (fun x => bankOf x.segment = b ∨ bankOf x.segment = b')).map
          (fun x => bankOf x.segment) = some b') ∧
    after.creditsHeld = r.creditsHeld ∧ after.eraseFlags = r.eraseFlags ∧ after.counters = r.counters)

/-! ## Chunking, digests and lookups -/

/-- SCAN_BYTE takes one byte: the window becomes the last 48 bytes with it, the sums are the sums over that
window by their definition, and position and chunk length rise by one. By the table of R33 a boundary cuts the
chunk, and in DRAINING the last intake byte cuts the final one: the chunk is in hand with no digest, and the
slot waits for the Digest Engine (R10, R29, R30, R33, R36). -/
def Obligations.ScanByteTakesOneByte : Prop :=
  ∀ (i : Fin 64) (b : Byte) (s : State),
    let x := s.slot i
    let p := x.profile
    (x.state = .opened ∨ x.state = .draining) → x.phase = some .scanning → x.hand = none →
    x.intake[x.chunker.len]? = some b → Rolled x.chunker →
    let w := (x.chunker.window ++ [b]).drop (x.chunker.window.length + 1 - 48)
    let len := x.chunker.len + 1
    let rolled : Chunker := ⟨w, windowA w, windowB w, x.chunker.position + 1, len⟩
    let boundary : Prop := p.min ≤ len ∧ (p.max ≤ len ∨ (len < p.tgt ∧ windowB w % p.d1 = 0) ∨
      (p.tgt ≤ len ∧ windowB w % p.d2 = 0))
    let cut := act (dgeChoose (s.withSlot i
      { x with chunker := { rolled with len := 0 }, hand := some ⟨len, none⟩, phase := some .digestWait }))
    (boundary → exec (.scanByte i) s = cut) ∧
    (¬ boundary → x.state = .draining → len = x.intake.length → exec (.scanByte i) s = cut) ∧
    (¬ boundary → x.state = .opened ∨ len < x.intake.length →
      exec (.scanByte i) s = act (s.withSlot i { x with chunker := rolled }))

/-- Two chunkers with the same profile that stand at a boundary, whatever they took before, place their
boundaries at the same offsets through any run of identical bytes (R38). -/
def Obligations.BoundariesDependOnChunkAlone : Prop :=
  ∀ (p : Profile) (c d : Chunker) (bytes : List Byte), ProfileBounds p → Rolled c → Rolled d →
    c.len = 0 → d.len = 0 →
    let scan (c : Chunker) : Chunker × List Bool := bytes.foldl (fun acc x =>
      let c := acc.1.take x
      let cut := boundaryAfter p c.len c.b
      ((if cut then { c with len := 0 } else c), acc.2 ++ [cut])) (c, [])
    (scan c).2 = (scan d).2

/-- DIGEST_COMPLETE stores the digest of the chunk's bytes with the chunk in hand and appends the slot's lookup
to the queue. The idle engine then takes the waiting slot that comes first after the one last served, slot 0
following slot 63; with no slot waiting, or while it works, it takes none (R11, R12). -/
def Obligations.DigestCompleteQueuesLookup : Prop :=
  (∀ (i : Fin 64) (h : Hand) (s : State), s.dge.current = some i → (s.slot i).hand = some h →
    let x := s.slot i
    let d := Config.digest (x.intake.take h.length)
    exec .digestComplete s = act (dgeChoose
      { s.withSlot i { x with hand := some ⟨h.length, some d⟩, phase := some .lookup } with
        dix.lookups := s.dix.lookups ++ [⟨i, d, h.length⟩]
        dge := ⟨none, s.dge.lastServed⟩ })) ∧
  (∀ s : State,
    let waits (i : Fin 64) : Prop := (s.slot i).phase = some .digestWait
    let distance (i : Fin 64) : Nat := (i.val + 63 - s.dge.lastServed.val) % 64
    (s.dge.current ≠ none ∨ (∀ i, ¬ waits i) → dgeChoose s = s) ∧
    (s.dge.current = none → ∀ i, waits i → (∀ j, waits j → distance i ≤ distance j) →
      dgeChoose s = { s.withSlot i { s.slot i with phase := some .digesting } with dge := ⟨some i, i⟩ }))

/-- LOOKUP_TAKEN takes the head of the queue. A hit takes a reference; without verify the record is formed as
a duplicate, with verify the slot enters VERIFYING, on bytes copied from a buffer or on a read at the bank. A
hit on an absent sequence is stale: the chunk is placed and the same way overwritten. A miss places the chunk
and puts its entry into the lowest empty way, else the lowest stale one, else the programmed one of the lowest
sequence and lowest way; with eight pending ways the chunk stays unindexed. A refused placement defers the
slot with nothing inserted. A placement goes into the filling slab where it fits, at offset U with one reference
more. Otherwise the cursor advances to the next slab of the OPEN segment, or to slab 0 of the lowest FREE one
outside the reserve: the filling slab leaves FILLING, a used-up OPEN segment closes and is judged as a
candidate (O50 says what a judgement does), and STORE_LOW is raised below setting 22. Without a slab or a sequence it is refused with STORE_FULL, and without a FREE buffer with
nothing changed (R13, R40, R44, R45, R46, R48, R49, R50, R52, R62, R64, R67, R68, R73, R74, R75, R80, R144; the
tickets of verifies are the model's own, log 20). -/
def Obligations.LookupTakenHitsOrPlaces : Prop :=
  (∀ (kind : ObjectKind) (bytes : List Byte) (s : State), OneOpen s → SequenceLaw s →
    let filling (x : FillBuffer) : Prop := some x ∈ s.plu.buffers.toList ∧ x.state = .filling
    let room (x : FillBuffer) : Prop := x.data.length + bytes.length + 64 * (x.entries.length + 1) + 64 ≤ 262144
    let usedUp : Prop := ∀ g k, assocGet s.plu.segments g = some (.opened k) → 32 ≤ k
    let noSlab : Prop := usedUp ∧ (s.plu.freeSegments.length ≤ s.cfg.inForce[23] ∨ s.plu.waitList ≠ [])
    (∀ x, filling x → room x →
      ∃ t, placeObject kind bytes s = (some ⟨x.seq, x.data.length⟩, t) ∧
        t = { s with plu := { s.plu with buffers := t.plu.buffers, map := t.plu.map } } ∧
        t.plu.buffers = s.plu.buffers.map (fun o => o.map (fun y => if y.seq = x.seq then
          { y with
            data := y.data ++ bytes
            entries := y.entries ++ [⟨kind, x.data.length, bytes.length⟩] } else y)) ∧
        (∀ e, assocGet s.plu.map x.seq = some e → assocGet t.plu.map x.seq =
          some { e with count := if e.count < 4294967295 then e.count + 1 else e.count }) ∧
        ∀ q, q ≠ x.seq → assocGet t.plu.map q = assocGet s.plu.map q) ∧
    ((∀ x, filling x → ¬ room x) →
      (noSlab ∨ (∀ q, s.plu.nextSeq = some q → 4294967295 ≤ q) →
        placeObject kind bytes s = (none, raise (deviceNotice .storeFull) s)) ∧
      (∀ q, s.plu.nextSeq = some q → q < 4294967295 → ¬ noSlab →
        (none ∉ s.plu.buffers.toList → placeObject kind bytes s = (none, s)) ∧
        (none ∈ s.plu.buffers.toList →
          ∃ p t, placeObject kind bytes s = (some ⟨q, 0⟩, t) ∧
            (∀ g k, assocGet s.plu.segments g = some (.opened k) → k < 32 → p = ⟨g, k⟩) ∧
            (usedUp → p.slab = 0 ∧ s.plu.freeSegments.head? = some p.segment) ∧
            t.plu.nextSeq = some (q + 1) ∧ assocGet t.plu.map q = some ⟨some p, 1⟩ ∧
            (∀ q', q' ≠ q → assocGet t.plu.map q' = assocGet s.plu.map q') ∧
            some ⟨.filling, q, bytes, [⟨kind, 0, bytes.length⟩], none⟩ ∈ t.plu.buffers.toList ∧
            (∀ y, some y ∈ t.plu.buffers.toList → y.seq = q ∨
              (y.state ≠ .filling ∧ some y ∈ (leaveFilling s).plu.buffers.toList)) ∧
            assocGet t.plu.segments p.segment = some (.opened (p.slab + 1)) ∧
            (∀ g, g ≠ p.segment → assocGet t.plu.segments g =
              if (assocGet s.plu.segments g).any SegState.isOpen then some .closed
              else assocGet s.plu.segments g) ∧
            (let low : Prop := usedUp ∧ t.plu.freeSegments.length - s.cfg.inForce[23] < s.cfg.inForce[22]
            (low → t.rpu = (raise (deviceNotice .storeLow) s).rpu) ∧ (¬ low → t.rpu = s.rpu)) ∧
            (let judged (g : Nat) : Rcl := (judgeSegment g { t with rcl := s.rcl }).rcl
            (∀ g k, assocGet s.plu.segments g = some (.opened k) → t.rcl = if k < 32 then s.rcl else judged g) ∧
            ((∀ g k, assocGet s.plu.segments g ≠ some (.opened k)) → t.rcl = s.rcl)) ∧
            t.stc = (leaveFilling s).stc ∧ t.plu.waitList = (leaveFilling s).plu.waitList ∧
            t.plu.floor = s.plu.floor ∧ t.slots = s.slots ∧ t.dge = s.dge ∧ t.dix = s.dix ∧ t.rcu = s.rcu ∧
            t.rtn = s.rtn ∧ t.cfg = s.cfg ∧ t.lines = s.lines ∧ t.store = s.store ∧ t.draws = s.draws ∧
            t.pending = s.pending)))) ∧
  ∀ (l : Lookup) (rest : List Lookup) (s : State), s.dix.lookups = l :: rest → IndexLaw s →
    let x := s.slot l.slot
    let n := s.dix.counters
    let up (k : Nat) : Nat := Nat.min (k + 1) (2 ^ 48 - 1)
    let key (w : Nat) : Nat := l.digest.toNat / 2 ^ 236 * 8 + w
    let way (w : Nat) : Option IndexEntry := assocGet s.dix.index (key w)
    let verify : Prop := x.verifyOverride = .on ∨ (x.verifyOverride = .default ∧ s.cfg.inForce[20] = 1)
    let entered (loc : Location) (w : Nat) (t : State) : State :=
      { t with dix.index := assocSet t.dix.index (key w) ⟨l.digest, l.length, loc.seq, loc.offset⟩ }
    let evicted (t : State) : State := { t with dix.counters.evictions := up t.dix.counters.evictions }
    (∀ w e, w < 8 → way w = some e → e.digest = l.digest → e.length = l.length →
      (s.plu.mapped e.seq = true →
        let hit := { s with
          plu := s.plu.addReference e.seq
          dix := { s.dix with lookups := rest, counters := { n with lookups := up n.lookups, hits := up n.hits } } }
        let verifying (copied : Option (List Byte)) (t : State) : State :=
          { t with
            slots := t.slots.set l.slot { x with phase := some .verifying }
            dix.verifies := t.dix.verifies.set l.slot
              (some ⟨s.dix.nextTicket, e.seq, e.offset, e.length, copied⟩)
            dix.nextTicket := s.dix.nextTicket + 1 }
        (¬ verify → exec .lookupTaken s = act (formRecord l.slot ⟨e.seq, e.offset⟩ .duplicate hit)) ∧
        (∀ b, verify → s.plu.bufferOf e.seq = some b →
          exec .lookupTaken s =
            act (verifying (some (((bufferImage b).drop e.offset).take e.length)) hit)) ∧
        (∀ p, verify → s.plu.bufferOf e.seq = none → s.plu.placeOf e.seq = some p →
          exec .lookupTaken s = act (verifying none
            (queueRead ⟨.verify l.slot s.dix.nextTicket, p, e.offset, e.length⟩ hit)))) ∧
      (s.plu.mapped e.seq = false →
        let missed := { s with dix := { s.dix with
          lookups := rest
          counters := { n with
            lookups := up n.lookups, misses := up n.misses, staleHits := up n.staleHits } } }
        ∀ placed t, placeObject (.chunk l.digest) (handBytes x) missed = (placed, t) →
          (placed = none → exec .lookupTaken s = act (defer l.slot .chunk t)) ∧
          (∀ loc, placed = some loc →
            exec .lookupTaken s = act (formRecord l.slot loc .indexed (entered loc w t))))) ∧
    ((∀ w e, w < 8 → way w = some e → e.digest ≠ l.digest ∨ e.length ≠ l.length) →
      let missed := { s with dix := { s.dix with
        lookups := rest
        counters := { n with lookups := up n.lookups, misses := up n.misses } } }
      ∀ placed t, placeObject (.chunk l.digest) (handBytes x) missed = (placed, t) →
        let stale (w : Nat) : Prop := ∃ e, way w = some e ∧ t.plu.mapped e.seq = false
        let programmed (w q : Nat) : Prop := ∃ e, way w = some e ∧ e.seq = q ∧ t.plu.pending e.seq = false
        (placed = none → exec .lookupTaken s = act (defer l.slot .chunk t)) ∧
        (∀ loc w, placed = some loc → w < 8 →
          (way w = none → (∀ v < w, way v ≠ none) →
            exec .lookupTaken s = act (formRecord l.slot loc .indexed (entered loc w t))) ∧
          ((∀ v < 8, way v ≠ none) → stale w → (∀ v < w, ¬ stale v) →
            exec .lookupTaken s = act (formRecord l.slot loc .indexed (evicted (entered loc w t)))) ∧
          (∀ q, (∀ v < 8, way v ≠ none ∧ ¬ stale v) → programmed w q →
            (∀ v q', v < 8 → programmed v q' → q < q' ∨ (q = q' ∧ w ≤ v)) →
            exec .lookupTaken s = act (formRecord l.slot loc .indexed (evicted (entered loc w t)))) ∧
          ((∀ v < 8, way v ≠ none ∧ ¬ stale v ∧ ∀ q, ¬ programmed v q) →
            exec .lookupTaken s = act (formRecord l.slot loc .unindexed
              { t with dix.counters.unindexed := up t.dix.counters.unindexed }))))

/-- The record of a chunk in hand moves it out of the intake into the record buffer and counts it, and a
crossing of the watch level in OPEN raises STREAM_SPACE. The 4,096th record of a buffer has its block placed,
or defers the slot. The 1,048,576th record of a stream drops the rest of its intake and closes it with reason
LIMIT. In the same action a slot in DRAINING, with its block placed where one was due, goes on as a drained
stream does once its chunker has taken every byte. A drained stream cuts what is left as its final chunk; with nothing left it places its final block,
completes its entry, places its head, flushes the head's slab and waits in COMMITTING, or defers. A deferred
slot holds its item and raises STREAM_STALLED; at placement available every DEFERRED slot resubmits in ascending
order: a chunk's lookup joins the queue, a block or a head is asked for again and the slot goes on from there. A
slab that leaves FILLING is QUEUED with its header written and its program goes to its bank, or it joins the
wait list where it has no place (R8, R9, R14, R16, R17, R20, R21, R27, R64, R69, R74, R80, R104, R105; the place
fields of a header without a place are free, log 3). -/
def Obligations.RecordsBlocksAndHeadsAreFormed : Prop :=
  (∀ (i : Fin 64) (loc : Location) (fate : ChunkFate) (len : Nat) (d : Digest) (s : State),
    let x := s.slot i
    x.hand = some ⟨len, some d⟩ →
    let c := x.counters
    let up (n k : Nat) : Nat := Nat.min (n + k) (2 ^ 48 - 1)
    let counters : StreamCounters := { c with
      chunks := up c.chunks 1
      chunked := up c.chunked len
      dupChunks := if fate = .duplicate then up c.dupChunks 1 else c.dupChunks
      dupBytes := if fate = .duplicate then up c.dupBytes len else c.dupBytes
      newChunks := if fate = .duplicate then c.newChunks else up c.newChunks 1
      newBytes := if fate = .duplicate then c.newBytes else up c.newBytes len
      unindexed := if fate = .duplicate then c.unindexed
        else up c.unindexed (if fate = .indexed then 0 else 1)
      collisions := if fate = .duplicate then c.collisions
        else up c.collisions (if fate = .collided then 1 else 0) }
    let y : Slot := { x with
      intake := x.intake.drop len, hand := none, phase := some .scanning, item := none
      records := x.records + 1, counters := counters }
    let records := (s.recordBuffer i).records ++ [⟨d, loc.seq, loc.offset, len⟩]
    let next := (s.recordBuffer i).nextBlock
    let moved := (s.withSlot i y).withRecordBuffer i ⟨records, next⟩
    let crosses : Prop := x.state = .opened ∧ x.watchOn = true ∧
      262144 - x.intake.length < x.watchLevel * 1024 ∧
      x.watchLevel * 1024 ≤ 262144 - (x.intake.length - len)
    let formed (t : State) : Prop :=
      (crosses → t = raise (slotNotice .streamSpace i) moved) ∧ (¬ crosses → t = moved)
    (x.records + 1 ≠ 1048576 → records.length ≠ 4096 →
      x.state = .opened ∨ (x.state = .draining ∧ x.chunker.len < x.intake.length - len) →
      formed (formRecord i loc fate s)) ∧
    (∀ u, (x.records + 1 ≠ 1048576 → formed u) →
      (x.records + 1 = 1048576 → u = (s.withSlot i { y with
        intake := [], chunker := { x.chunker with len := 0 }, state := .draining, closeReason := some .limit
        counters := { counters with dropped := up c.dropped (x.intake.length - len) } }).withRecordBuffer i
          ⟨records, next⟩) →
      (records.length ≠ 4096 → formRecord i loc fate s = drainStep i u) ∧
      (records.length = 4096 → ∀ placed t,
        placeObject (.recipeBlock x.recipe next) (blockBytes x.recipe next records) u = (placed, t) →
        (placed = none → formRecord i loc fate s = defer i .block t) ∧
        (∀ at' r, placed = some at' → assocGet s.rcu.catalog x.recipe = some r →
          let stored := (t.withRecordBuffer i ⟨[], next + 1⟩).withRecipe x.recipe { r with blocks := r.blocks ++ [at'] }
          formRecord i loc fate s = drainStep i stored ∧
          (x.records + 1 ≠ 1048576 → x.state = .opened → formRecord i loc fate s = stored)))) ∧
    (x.records + 1 = 1048576 →
      let z := (formRecord i loc fate s).slot i
      z.intake = [] ∧ z.closeReason = some .limit ∧ z.records = 1048576 ∧ z.state ≠ .opened ∧
      z.counters = { counters with dropped := up c.dropped (x.intake.length - len) })) ∧
  (∀ (i : Fin 64) (s : State),
    let x := s.slot i
    let drained : Prop := x.state = .draining ∧ x.phase = some .scanning ∧ x.hand = none ∧
      x.intake.length ≤ x.chunker.len
    (¬ drained → drainStep i s = s) ∧
    (drained → 0 < x.chunker.len → drainStep i s = dgeChoose (s.withSlot i { x with
      hand := some ⟨x.chunker.len, none⟩, chunker := { x.chunker with len := 0 }, phase := some .digestWait }))) ∧
  (∀ (i : Fin 64) (r : Recipe) (s out : State),
    let x := s.slot i
    let buffer := s.recordBuffer i
    assocGet s.rcu.catalog x.recipe = some r →
    let final : Prop := x.state = .draining ∧ x.phase = some .scanning ∧ x.hand = none ∧ x.intake = [] ∧
      x.chunker.len = 0 ∧ buffer.records ≠ [] ∧ out = drainStep i s
    let again : Prop := x.item = some .block ∧ out = resubmit i s
    final ∨ again →
    ∀ placed t, placeObject (.recipeBlock x.recipe buffer.nextBlock)
        (blockBytes x.recipe buffer.nextBlock buffer.records) s = (placed, t) →
      (placed = none → out = defer i .block t) ∧
      (∀ loc, placed = some loc →
        let stored := (t.withRecordBuffer i ⟨[], buffer.nextBlock + 1⟩).withRecipe x.recipe
          { r with blocks := r.blocks ++ [loc] }
        (final → out = drainStep i stored) ∧
        (again → out = drainStep i (stored.withSlot i { x with phase := some .scanning, item := none })))) ∧
  (∀ (i : Fin 64) (r : Recipe) (s out : State), OneOpen s →
    let x := s.slot i
    let final : Prop := x.state = .draining ∧ x.phase = some .scanning ∧ x.hand = none ∧ x.intake = [] ∧
      x.chunker.len = 0 ∧ (s.recordBuffer i).records = [] ∧ out = drainStep i s
    let again : Prop := x.item = some .head ∧ out = resubmit i s
    final ∨ again → assocGet s.rcu.catalog x.recipe = some r →
    let closed : Recipe := { r with
      byteTotal := x.counters.chunked, recordCount := x.records, blockCount := r.blocks.length
      closeReason := x.closeReason }
    ∀ placed t, placeObject (.recipeHead x.recipe) (headBytes x.recipe closed)
        (s.withRecipe x.recipe closed) = (placed, t) →
      (placed = none → out = defer i .head t) ∧
      (∀ loc, placed = some loc →
        out.slot i = { x with state := .committing, phase := none, item := none, headSeq := some loc.seq } ∧
        assocGet out.rcu.catalog x.recipe = some { closed with head := some loc, state := .committing } ∧
        (∀ b, some b ∈ out.plu.buffers.toList → b.state ≠ .filling) ∧
        out.plu = (leaveFilling t).plu ∧ out.stc = (leaveFilling t).stc ∧
        ∀ j, j ≠ i → out.slot j = s.slot j)) ∧
  (∀ (i : Fin 64) (item : Item) (s : State),
    defer i item s = raise (slotNotice .streamStalled i)
      (s.withSlot i { s.slot i with phase := some .deferred, item := some item })) ∧
  (∀ (i : Fin 64) (len : Nat) (d : Digest) (s : State),
    let x := s.slot i
    x.item = some .chunk → x.hand = some ⟨len, some d⟩ →
    resubmit i s = { s.withSlot i { x with phase := some .lookup, item := none } with
      dix.lookups := s.dix.lookups ++ [⟨i, d, len⟩] }) ∧
  (∀ s : State, placementAvailable s =
    ((List.finRange 64).filter (fun i => (s.slot i).phase = some .deferred)).foldl (fun t i => resubmit i t) s) ∧
  (∀ s : State, OneOpen s →
    ((∀ x, some x ∈ s.plu.buffers.toList → x.state ≠ .filling) → leaveFilling s = s) ∧
    ∀ x, some x ∈ s.plu.buffers.toList → x.state = .filling →
      let queued (header : BitVec 16 × BitVec 8) : State := { s with
        plu.buffers := s.plu.buffers.map (fun o => o.map (fun y => if y.seq = x.seq then
          { y with state := .queued, header := some header } else y)) }
      (∀ p, s.plu.placeOf x.seq = some p →
        leaveFilling s = queueProgram x.seq (queued (BitVec.ofNat 16 p.segment, BitVec.ofNat 8 p.slab))) ∧
      (s.plu.placeOf x.seq = none → leaveFilling s =
        let u := queued (Config.unassignedPlace x.seq)
        { u with plu.waitList := insertSeq x.seq s.plu.waitList }))

/-- A verify whose bytes were copied ends at its comparison, and one whose bytes are read ends at the read's
completion. Equal bytes form the record of a duplicate. Unequal bytes, or a read failure, give the reference
back, count a collision or a verify read fault, raise COLLISION or STORE_FAULT, and place the chunk as a new
object without an index entry, or defer the slot. An event of a verify that has left the table changes nothing
but the bank's own record (R52, R53, R54, R55, R56, R97). Two things here are the model's own: an event is told
by its ticket (log 20), and the consequences of a read come before the bank's next choice (log 7). -/
def Obligations.VerifyMatchesOrPlacesAnew : Prop :=
  let ended (i : Fin 64) (v : Verify) (s : State) (out : State → Out) (bytes : Option (List Byte))
      (answer : Out) : Prop :=
    let gone := { s with dix.verifies := s.dix.verifies.set i none }
    let back := giveBack v.seq gone
    let fate : ChunkFate := if bytes = none then .unindexed else .collided
    let counted := if bytes = none then
        raise (deviceNotice .storeFault) { back with
          dix.counters.verifyFaults := Nat.min (back.dix.counters.verifyFaults + 1) (2 ^ 48 - 1) }
      else raise (deviceNotice .collision) { back with
        dix.counters.collisions := Nat.min (back.dix.counters.collisions + 1) (2 ^ 48 - 1) }
    (bytes = some (handBytes (s.slot i)) →
      answer = out (formRecord i ⟨v.seq, v.offset⟩ .duplicate gone)) ∧
    (bytes ≠ some (handBytes (s.slot i)) → ∀ len d, (s.slot i).hand = some ⟨len, some d⟩ →
      ∀ placed t, placeObject (.chunk d) ((s.slot i).intake.take len) counted = (placed, t) →
        (placed = none → answer = out (defer i .chunk t)) ∧
        (∀ loc, placed = some loc → answer = out (formRecord i loc fate
          { t with dix.counters.unindexed := Nat.min (t.dix.counters.unindexed + 1) (2 ^ 48 - 1) })))
  (∀ (i : Fin 64) (ticket : Nat) (s : State),
    (∀ v bytes, s.dix.verifies[i] = some v → v.ticket = ticket → v.copied = some bytes →
      ended i v s act (some bytes) (exec (.verifyCompare i ticket) s)) ∧
    ((∀ v, s.dix.verifies[i] = some v → v.ticket ≠ ticket ∨ v.copied = none) →
      exec (.verifyCompare i ticket) s = act s)) ∧
  (∀ (b : Fin 4) (i : Fin 64) (ticket : Nat) (p : Place) (off len : Nat) (s : State),
    (s.bank b).running = some (.read ⟨.verify i ticket, p, off, len⟩) →
    let out (t : State) : Out := act (stoppingCheck (finishBank b t))
    let failed := recordFault b .read s
    (∀ v, s.dix.verifies[i] = some v → v.ticket = ticket → v.copied = none →
      ended i v s out (some (readSlabRun s.store p off len)) (exec (.verifyReadComplete b .ok) s) ∧
      ended i v failed out none (exec (.verifyReadComplete b .fail) s)) ∧
    ((∀ v, s.dix.verifies[i] = some v → v.ticket ≠ ticket ∨ v.copied ≠ none) →
      exec (.verifyReadComplete b .ok) s = out s ∧ exec (.verifyReadComplete b .fail) s = out failed))

/-! ## Programs, reads and erases at the banks -/

/-- A read or a program that arrives at a bank suspends a RUNNING erase suspended fewer than 15 times and starts
at once; after 15 suspensions it waits, as it does behind another running operation; at a bank that runs
nothing and has nothing waiting it starts at once. A program that starts makes its buffer PROGRAMMING and has
the trailer header of its place. A bank that completes takes its oldest read, else its oldest program,
else starts or resumes its held erase. No other bank, and nothing else, changes (R65, R85, R90, R91, R92). -/
def Obligations.BanksChooseReadsThenPrograms : Prop :=
  let programming (q : Nat) (p : Place) (s : State) : State := { s with
    plu.buffers := s.plu.buffers.map (fun x => x.map (fun y => if y.seq = q then
      { y with
        state := .programming, header := some (BitVec.ofNat 16 p.segment, BitVec.ofNat 8 p.slab) } else y)) }
  (∀ (j : ReadJob) (s : State),
    let b := bankOf j.place.segment
    let k := s.bank b
    (∀ e, k.held = some e → e.condition = .running → e.suspends < 15 → k.readQueue = [] →
      queueRead j s = s.withBank b { k with
        running := some (.read j)
        held := some { e with condition := .suspended, suspends := e.suspends + 1 } }) ∧
    (∀ e, k.held = some e → e.condition = .running → 15 ≤ e.suspends →
      queueRead j s = s.withBank b { k with readQueue := k.readQueue ++ [j] }) ∧
    ((∀ e, k.held = some e → e.condition ≠ .running) → k.running ≠ none →
      queueRead j s = s.withBank b { k with readQueue := k.readQueue ++ [j] }) ∧
    ((∀ e, k.held = some e → e.condition ≠ .running) → k.running = none → k.readQueue = [] →
      queueRead j s = s.withBank b { k with running := some (.read j) })) ∧
  (∀ (q : Nat) (p : Place) (s : State), s.plu.placeOf q = some p →
    let b := bankOf p.segment
    let k := s.bank b
    let waits := s.withBank b { k with programQueue := k.programQueue ++ [q] }
    (∀ e, k.held = some e → e.condition = .running → e.suspends < 15 → k.readQueue = [] → k.programQueue = [] →
      queueProgram q s = programming q p (s.withBank b { k with
        running := some (.program q p)
        held := some { e with condition := .suspended, suspends := e.suspends + 1 } })) ∧
    (∀ e, k.held = some e → e.condition = .running → 15 ≤ e.suspends → queueProgram q s = waits) ∧
    ((∀ e, k.held = some e → e.condition ≠ .running) → k.running ≠ none → queueProgram q s = waits) ∧
    ((∀ e, k.held = some e → e.condition ≠ .running) → k.running = none → k.readQueue = [] →
      k.programQueue = [] →
      queueProgram q s = programming q p (s.withBank b { k with running := some (.program q p) }))) ∧
  (∀ (b : Fin 4) (s : State),
    let k := s.bank b
    (∀ j rest, k.readQueue = j :: rest →
      finishBank b s = s.withBank b { k with running := some (.read j), readQueue := rest }) ∧
    (∀ q rest p, k.readQueue = [] → k.programQueue = q :: rest → s.plu.placeOf q = some p →
      finishBank b s =
        programming q p (s.withBank b { k with running := some (.program q p), programQueue := rest })) ∧
    (∀ e, k.readQueue = [] → k.programQueue = [] → k.held = some e →
      finishBank b s = s.withBank b { k with
        running := some (.erase e.segment), held := some { e with condition := .running } }) ∧
    (k.readQueue = [] → k.programQueue = [] → k.held = none →
      finishBank b s = s.withBank b { k with running := none }))

/-- A program that completes OK leaves its image, and nothing else of the store changed: a VALID slab of its
place where the image is one of R61 with 1 to 4,032 objects. Its buffer is freed and the sequence floor rises to
it. The slab's segment is judged as a candidate, and so is the segment that the floor leaves (O50 says what a
judgement does). Then every stream in COMMITTING whose lower and equal sequences given out have all been
programmed commits, in ascending slot order. A commit makes the slot DONE and COMMITTED with its summary captured,
raises STREAM_DONE, counts the recipe and makes its entry LIVE; an entry that has expired and is not protected
becomes QUEUED with job RELEASE at the tail of the release queue instead, and with no walk running in OPERATING
the head of the queue is then taken (O46 says how walks start). Placement available is then announced, and every
slot that was DEFERRED is so still when it is (that order is the model's choice, log 10; that the bank chooses last
an inference, log 7, and when commits are judged another, log 22; O41 says what an announcement does). No flag,
count or last fault of a bank changes (R22, R61, R65, R74, R76, R77, R86, R94, R109, R144). -/
def Obligations.ProgramCompleteWritesSlab : Prop :=
  let due (s : State) (r : Recipe) : Bool := r.expiryDay < s.rtn.memory.day &&
    (assocGet s.rtn.memory.holds r.branch).all (fun start => r.expiryDay < start)
  let summary (x : Slot) : Summary := ⟨.committed, x.closeReason, x.recipe, x.counters.chunked, x.records,
    x.counters.newChunks, x.counters.dupChunks⟩
  (∀ (i : Fin 64) (s : State),
    let x := s.slot i
    let reported := raise (slotNotice .streamDone i) { s with
      slots := s.slots.set i { x with
        state := .done, phase := none, outcome := some .committed, summary := some (summary x) }
      rcu.counters.committed := Nat.min (s.rcu.counters.committed + 1) (2 ^ 48 - 1) }
    (assocGet s.rcu.catalog x.recipe = none → commitSlot i s = reported) ∧
    ∀ r, assocGet s.rcu.catalog x.recipe = some r →
      (due s r = false → commitSlot i s = { reported with
        rcu.catalog := assocSet s.rcu.catalog x.recipe { r with state := .live } }) ∧
      (due s r = true → commitSlot i s = startWalks { reported with
        rcu.catalog := assocSet s.rcu.catalog x.recipe { r with state := .queued, job := some .release }
        rcu.releaseQueue := s.rcu.releaseQueue ++ [x.recipe] })) ∧
  ∀ (b : Fin 4) (seq : Nat) (p : Place) (x : FillBuffer) (s : State),
    (s.bank b).running = some (.program seq p) → s.plu.bufferOf seq = some x → SequenceLaw s →
    x.data.length + 64 * x.entries.length + 64 ≤ 262144 →
    let floor := match s.plu.floor with
      | some f => Nat.max f seq
      | none => seq
    let segment (q : Nat) : Option Nat := (s.plu.placeOf q).map Place.segment
    let held := s.plu.floor.bind segment
    let durable (h : Nat) : Prop := (∀ q ∈ s.plu.buffered, q ≠ seq → h < q) ∧
      ((∀ q ∈ s.plu.buffered, q = seq) → ∃ n, s.plu.nextSeq = some n ∧ h < n)
    ∃ (covered : List (Fin 64)) (v w u t : State), covered.Pairwise (· < ·) ∧
      (∀ i, i ∈ covered ↔ (s.slot i).state = .committing ∧ ∃ h, (s.slot i).headSeq = some h ∧ durable h) ∧
      v = { s with
        store := v.store
        plu := { s.plu with buffers := s.plu.buffers.map (·.filter (·.seq != seq)), floor := some floor } } ∧
      (held = none ∨ held = segment floor → w = judgeSegment p.segment v) ∧
      (∀ g, held = some g → segment floor ≠ some g → w = judgeSegment g (judgeSegment p.segment v)) ∧
      u = covered.foldl (fun y i => commitSlot i y) w ∧
      exec (.programComplete b .ok) s = act (stoppingCheck (finishBank b (placementAvailable u))) ∧
      exec (.programComplete b .ok) s = .next t ∧
      seq ∉ u.plu.buffered ∧
      (∀ i, (s.slot i).phase = some .deferred → (s.slot i).state ≠ .committing → u.slot i = s.slot i) ∧
      readSlab t.store p = bufferImage x ∧
      (x.header = some (BitVec.ofNat 16 p.segment, BitVec.ofNat 8 p.slab) → p.segment < 65536 → p.slab < 256 →
        x.seq ≤ 4294967294 → 1 ≤ x.entries.length → x.entries.length ≤ 4032 →
        slabCondition p (readSlab t.store p) = .valid) ∧
      (∀ a, ¬ inSlab p a → readByte t.store a = readByte s.store a) ∧
      seq ∉ t.plu.buffered ∧ t.plu.floor = some floor ∧
      (∀ i h, (s.slot i).state = .committing → (s.slot i).headSeq = some h →
        ((t.slot i).state = .done ↔ durable h) ∧
        ((t.slot i).state = .done → (t.slot i).outcome = some .committed ∧
          (t.slot i).summary = some (summary (s.slot i)) ∧
          (kindEnabled s.rpu.mask .streamDone = true → slotNotice .streamDone i ∈ t.rpu.notices))) ∧
      t.rcu.counters.committed = (if covered = [] then s.rcu.counters.committed
        else Nat.min (s.rcu.counters.committed + covered.length) (2 ^ 48 - 1)) ∧
      (∀ i r, i ∈ covered → assocGet s.rcu.catalog (s.slot i).recipe = some r →
        (∀ j, (s.slot j).phase = some .deferred → (s.slot j).recipe ≠ (s.slot i).recipe) →
        (due s r = false → (s.slot i).recipe ∉ s.rcu.releaseQueue →
          assocGet t.rcu.catalog (s.slot i).recipe = some { r with state := .live }) ∧
        (due s r = true → s.rcu.walk ≠ none ∨ s.cfg.mode ≠ .operating →
          assocGet t.rcu.catalog (s.slot i).recipe = some { r with state := .queued, job := some .release })) ∧
      (s.rcu.walk ≠ none ∨ s.cfg.mode ≠ .operating → t.rcu.releaseQueue = s.rcu.releaseQueue ++
        (covered.map (fun i => (s.slot i).recipe)).filter (fun n => (assocGet s.rcu.catalog n).any (due s))) ∧
      (∀ b', (t.bank b').flags = (s.bank b').flags ∧ (t.bank b').faults = (s.bank b').faults) ∧
      t.stc.lastFault = s.stc.lastFault ∧ t.rtn.memory = s.rtn.memory ∧ t.cfg.inForce = s.cfg.inForce ∧
      t.draws = s.draws

/-- A program that completes FAIL leaves its slab not VALID, its trailer header area overwritten with 00h where
the part could do so (which programs these are is free, log 2), and the rest of the store as it was. The failure is
recorded and STORE_FAULT raised, and the segment closes. Outside STOPPING the image keeps its sequence, its
objects and its count in its buffer, and takes a place in the lowest FREE segment; with no segment FREE it
waits without a place and STORE_FULL is raised. The slab of the other buffer moves with it where it lies in the
same segment and is not at program: its queued program is withdrawn, those behind it moving up, and the slabs
moved take the new segment's slabs from 0 on in ascending sequence, or join the wait list. Each but a filling one
has its program handed to the new segment's bank in that order (O43 says how it arrives). The new segment is
OPEN, with as many slabs given out, where no other is, and else CLOSED and judged as a candidate; the failed
segment is judged after it (O50 says what a judgement does). No other map entry, buffer, segment or program queue
changes before the bank chooses (R78, R79, R80, R86, R93, R95, R97, R144; that the failed segment is judged once
its slabs have moved is the model's inference, log 33, and that the bank chooses after all of this another,
log 7). -/
def Obligations.FailedProgramIsRetargeted : Prop :=
  ∀ (b : Fin 4) (seq : Nat) (p : Place) (x : FillBuffer) (e : SlabEntry) (s : State),
    (s.bank b).running = some (.program seq p) → s.plu.bufferOf seq = some x →
    assocGet s.plu.map seq = some e → OneOpen s → assocGet s.plu.segments p.segment ≠ some .free →
    ∃ t, exec (.programComplete b .fail) s = .next t ∧
      slabCondition p (readSlab t.store p) ≠ .valid ∧
      (Config.headerCleared s.draws = false ∨ ∀ k, 262080 ≤ k → k < 262144 →
        readByte t.store (slabBase p + k) = 0x00#8) ∧
      (∀ a, ¬ inSlab p a → readByte t.store a = readByte s.store a) ∧
      (t.bank b).flags = { (s.bank b).flags with program := true } ∧
      (t.bank b).faults = { (s.bank b).faults with
        program := Nat.min ((s.bank b).faults.program + 1) (2 ^ 48 - 1) } ∧
      t.stc.lastFault = some (b, .program) ∧
      (kindEnabled s.rpu.mask .storeFault = true → deviceNotice .storeFault ∈ t.rpu.notices) ∧
      assocGet t.plu.segments p.segment = some .closed ∧
      (s.cfg.mode ≠ .stopping →
        (∃ y, t.plu.bufferOf seq = some y ∧ y.data = x.data ∧ y.entries = x.entries ∧ y.state ≠ .filling) ∧
        (assocGet t.plu.map seq).map SlabEntry.count = some e.count ∧
        (∀ g rest, s.plu.freeSegments = g :: rest → (t.plu.placeOf seq).map Place.segment = some g) ∧
        (s.plu.freeSegments = [] → t.plu.mapped seq = true ∧ t.plu.placeOf seq = none ∧ seq ∈ t.plu.waitList ∧
          (kindEnabled s.rpu.mask .storeFull = true → deviceNotice .storeFull ∈ t.rpu.notices))) ∧
      (∀ moved : List Nat, moved.Pairwise (· < ·) →
        (∀ q, q ∈ moved ↔ q = seq ∨ ∃ y, some y ∈ s.plu.buffers.toList ∧ y.seq = q ∧ y.state ≠ .programming ∧
          (s.plu.placeOf q).map Place.segment = some p.segment) →
        ∃ w u : State, exec (.programComplete b .fail) s = act (stoppingCheck (finishBank b u)) ∧
          w.plu.buffers = s.plu.buffers.map (fun o => o.map (fun y =>
            if y.seq = seq then { y with state := .queued } else y)) ∧
          w.bank b = { s.bank b with
            flags := (t.bank b).flags
            faults := (t.bank b).faults
            programQueue := (s.bank b).programQueue.filter (fun q => q ∉ moved) } ∧
          (∀ b', b' ≠ b → w.bank b' = s.bank b') ∧
          (∀ q, q ∉ moved → assocGet w.plu.map q = assocGet s.plu.map q) ∧
          (∀ h, h ≠ p.segment → s.plu.freeSegments.head? ≠ some h →
            assocGet w.plu.segments h = assocGet s.plu.segments h) ∧
          u.plu.map = w.plu.map ∧ u.plu.segments = w.plu.segments ∧ u.plu.waitList = w.plu.waitList ∧
          (∀ g rest, s.plu.freeSegments = g :: rest →
            (∀ k q e', moved[k]? = some q → assocGet s.plu.map q = some e' →
              assocGet w.plu.map q = some { e' with place := some ⟨g, k⟩ }) ∧
            ((∃ h n, h ≠ p.segment ∧ assocGet s.plu.segments h = some (.opened n)) →
              assocGet w.plu.segments g = some .closed ∧
              u.rcl = (judgeSegment p.segment (judgeSegment g { u with rcl := s.rcl })).rcl) ∧
            ((∀ h n, h ≠ p.segment → assocGet s.plu.segments h ≠ some (.opened n)) →
              assocGet w.plu.segments g = some (.opened moved.length) ∧
              u.rcl = (judgeSegment p.segment { u with rcl := s.rcl }).rcl) ∧
            w.plu.waitList = s.plu.waitList ∧
            (let queued := (moved.filter (fun q => (w.plu.bufferOf q).all (fun y => y.state ≠ .filling))).foldl
              (fun v q => queueProgram q v) w
            u.plu.buffers = queued.plu.buffers ∧ u.stc.banks = queued.stc.banks)) ∧
          (s.plu.freeSegments = [] →
            (∀ q e', q ∈ moved → assocGet s.plu.map q = some e' →
              assocGet w.plu.map q = some { e' with place := none }) ∧
            (s.plu.waitList.Pairwise (· < ·) → w.plu.waitList.Pairwise (· < ·)) ∧
            (∀ q, q ∈ w.plu.waitList ↔ q ∈ s.plu.waitList ∨ q ∈ moved) ∧
            u.rcl = (judgeSegment p.segment { u with rcl := s.rcl }).rcl ∧
            u.plu.buffers = w.plu.buffers ∧ u.stc.banks = w.stc.banks))

/-- A walk's block read ends. Data whose header matches gives back one reference for each record, at the sequence
it names, never below 0 and never from a pinned count; a header that does not match gives back none; a read
failure gives back none, leaks the records, counts a walk read fault and raises STORE_FAULT. The walk goes on
with the next block: an absent one leaks its records, a buffered one is taken at once, a stored one is read.
After the last block one reference goes back for each block and, for a RELEASE job, for the head; the entry
leaves the catalog, its job is counted, and with an empty queue RELEASES_IDLE is raised. In OPERATING with no
walk running the head of the queue is taken: a protected RELEASE returns to LIVE and is counted, any other is
RELEASING and its walk begins at block 0. A completion for an abandoned walk is discarded (R72, R82, R89, R112,
R113, R114, R115, R116; the order of the give-backs of one action is the model's choice, log 31, and that the
bank chooses after them an inference, log 7). -/
def Obligations.WalkReadsGiveBackReferences : Prop :=
  let heldIn (r : Recipe) (k : Nat) : Nat := if k + 1 < r.blocks.length then 4096 else r.recordCount - 4096 * k
  let matching (n : Nat) (r : Recipe) (k : Nat) (bytes : List Byte) : Prop := field bytes 0 4 = n ∧
    field bytes 4 2 = k ∧ field bytes 6 2 = heldIn r k ∧ field bytes 8 4 = 4096 * k
  let names (r : Recipe) (k : Nat) (bytes : List Byte) : List Nat :=
    (List.range (heldIn r k)).map (fun j => field bytes (64 + 44 * j + 32) 4)
  let leaking (r : Recipe) (k : Nat) (s : State) : State := { s with
    rcu.counters.leaked := Nat.min (s.rcu.counters.leaked + heldIn r k) (2 ^ 48 - 1) }
  let ended (n : Nat) (r : Recipe) (s : State) : State :=
    if s.rcu.releaseQueue = [] then raise (deviceNotice .releasesIdle) (walkEnd n r s) else walkEnd n r s
  (∀ (n : Nat) (r : Recipe) (k : Nat) (l : Location) (rest : List Location) (s : State),
    walkFrom n r k [] s = (false, s) ∧
    (s.plu.mapped l.seq = false →
      walkFrom n r k (l :: rest) s = walkFrom n r (k + 1) rest (leaking r k s)) ∧
    (∀ x, s.plu.mapped l.seq = true → s.plu.bufferOf l.seq = some x →
      let bytes := ((bufferImage x).drop l.offset).take (64 + 44 * heldIn r k)
      (matching n r k bytes → walkFrom n r k (l :: rest) s =
        walkFrom n r (k + 1) rest ((names r k bytes).foldl (fun t q => giveBack q t) s)) ∧
      (¬ matching n r k bytes → walkFrom n r k (l :: rest) s = walkFrom n r (k + 1) rest s)) ∧
    (∀ p, s.plu.mapped l.seq = true → s.plu.bufferOf l.seq = none → s.plu.placeOf l.seq = some p →
      walkFrom n r k (l :: rest) s =
        (true, { queueRead ⟨.walk, p, l.offset, 64 + 44 * heldIn r k⟩ s with rcu.walk := some ⟨n, k⟩ }))) ∧
  (∀ (n : Nat) (r : Recipe) (s : State),
    let t := walkEnd n r s
    let objects := r.blocks.map Location.seq ++
      (if r.job = some .release then r.head.toList.map Location.seq else [])
    (∀ q e, assocGet s.plu.map q = some e → assocGet t.plu.map q = some { e with
      count := if e.count < 4294967295 then e.count - objects.count q else e.count }) ∧
    (∀ q, assocGet s.plu.map q = none → assocGet t.plu.map q = none) ∧
    t = { s with
      plu.map := t.plu.map
      rcl := t.rcl
      rcu := { s.rcu with
        catalog := assocErase s.rcu.catalog n
        walk := none
        counters := if r.job = some .release then
            { s.rcu.counters with released := Nat.min (s.rcu.counters.released + 1) (2 ^ 48 - 1) }
          else { s.rcu.counters with abortJobs := Nat.min (s.rcu.counters.abortJobs + 1) (2 ^ 48 - 1) } } }) ∧
  (∀ s : State,
    (s.cfg.mode ≠ .operating ∨ s.rcu.walk ≠ none ∨ s.rcu.releaseQueue = [] → startWalks s = s) ∧
    ∀ n rest r, s.cfg.mode = .operating → s.rcu.walk = none → s.rcu.releaseQueue = n :: rest →
      assocGet s.rcu.catalog n = some r →
      let spared : Prop := r.job = some .release ∧
        ∃ start, assocGet s.rtn.memory.holds r.branch = some start ∧ start ≤ r.expiryDay
      let taken (x : Recipe) : State := { s with rcu := { s.rcu with
        releaseQueue := rest, catalog := assocSet s.rcu.catalog n x } }
      (spared →
        let v := taken { r with state := .live, job := none }
        let u := { v with
          rcu.counters.walksReturned := Nat.min (s.rcu.counters.walksReturned + 1) (2 ^ 48 - 1) }
        startWalks s = startWalks (if rest = [] then raise (deviceNotice .releasesIdle) u else u)) ∧
      (¬ spared → ∀ waits t, walkFrom n r 0 r.blocks (taken { r with state := .releasing }) = (waits, t) →
        startWalks s = if waits then t else startWalks (ended n r t))) ∧
  ∀ (b : Fin 4) (p : Place) (off len : Nat) (result : OpResult) (s : State),
    (s.bank b).running = some (.read ⟨.walk, p, off, len⟩) →
    let bytes := readSlabRun s.store p off len
    let up (n k : Nat) : Nat := Nat.min (n + k) (2 ^ 48 - 1)
    (s.rcu.walk = none → exec (.walkBlockReadComplete b result) s =
      act (stoppingCheck (finishBank b (match result with
        | .ok => s
        | .fail => recordFault b .read s)))) ∧
    (∀ w r, s.rcu.walk = some w → assocGet s.rcu.catalog w.recipe = some r →
      let held := heldIn r w.block
      let named := names r w.block bytes
      let given (q : Nat) : Nat := if result = .ok ∧ field bytes 0 4 = w.recipe ∧ field bytes 4 2 = w.block ∧
        field bytes 6 2 = held ∧ field bytes 8 4 = 4096 * w.block then named.count q else 0
      (∃ d, (result = .ok → matching w.recipe r w.block bytes →
          d = named.foldl (fun t q => giveBack q t) s) ∧
        (result = .ok → ¬ matching w.recipe r w.block bytes → d = s) ∧
        (result = .fail →
          let u := leaking r w.block (recordFault b .read s)
          d = raise (deviceNotice .storeFault) { u with
            rcu.counters.walkReadFaults := up s.rcu.counters.walkReadFaults 1 }) ∧
        ∀ waits t, walkFrom w.recipe r (w.block + 1) (r.blocks.drop (w.block + 1)) d = (waits, t) →
          exec (.walkBlockReadComplete b result) s = act (stoppingCheck (finishBank b
            (if waits then t else startWalks (ended w.recipe r t))))) ∧
      (∀ l p', r.blocks[w.block + 1]? = some l → s.plu.mapped l.seq = true → s.plu.bufferOf l.seq = none →
        s.plu.placeOf l.seq = some p' →
        ∃ t, exec (.walkBlockReadComplete b result) s = .next t ∧
          t.rcu.walk = some ⟨w.recipe, w.block + 1⟩ ∧ t.rcu.catalog = s.rcu.catalog ∧
          (∀ q e, assocGet s.plu.map q = some e → assocGet t.plu.map q = some { e with
            count := if e.count < 4294967295 then e.count - given q else e.count }) ∧
          t.rcu.counters = { s.rcu.counters with
            leaked := (if result = .fail then up s.rcu.counters.leaked held else s.rcu.counters.leaked)
            walkReadFaults := (if result = .fail then up s.rcu.counters.walkReadFaults 1
              else s.rcu.counters.walkReadFaults) } ∧
          (result = .fail → kindEnabled s.rpu.mask .storeFault = true →
            deviceNotice .storeFault ∈ t.rpu.notices) ∧
          t.store = s.store) ∧
      (r.blocks.length ≤ w.block + 1 → s.rcu.releaseQueue = [] →
        ∃ t, exec (.walkBlockReadComplete b result) s = .next t ∧
          t.rcu.walk = none ∧ t.rcu.releaseQueue = [] ∧ t.rcu.catalog = assocErase s.rcu.catalog w.recipe ∧
          (s.cfg.mode ≠ .stopping → ∀ q e, assocGet s.plu.map q = some e →
            let objects := r.blocks.map Location.seq ++
              (if r.job = some .release then r.head.toList.map Location.seq else [])
            assocGet t.plu.map q = some { e with
              count := if e.count < 4294967295 then e.count - (given q + objects.count q) else e.count }) ∧
          t.rcu.counters.leaked =
            (if result = .fail then up s.rcu.counters.leaked held else s.rcu.counters.leaked) ∧
          t.rcu.counters.walkReadFaults =
            (if result = .fail then up s.rcu.counters.walkReadFaults 1 else s.rcu.counters.walkReadFaults) ∧
          t.rcu.counters.released =
            (if r.job = some .release then up s.rcu.counters.released 1 else s.rcu.counters.released) ∧
          t.rcu.counters.abortJobs =
            (if r.job = some .release then s.rcu.counters.abortJobs else up s.rcu.counters.abortJobs 1) ∧
          (kindEnabled s.rpu.mask .releasesIdle = true → deviceNotice .releasesIdle ∈ t.rpu.notices) ∧
          t.store = s.store))

/-- A read of the rebuild's scan classifies its slab, a failed read and a second slab of one sequence as TORN,
and counts it; a VALID slab gets a map entry at its place, any other none. The bank is asked for one further
read while one is left, the next slab of its segments in ascending order: it stands behind those waiting there, or
runs. The 32nd slab of a segment gives the segment its state: CLOSED with a VALID slab, else
queued for erase with a TORN one, else FREE. The trailer entries of a VALID slab are taken in object order: a
chunk is offered to the index, a block or a head raises the highest recipe number, and a head adds a candidate,
which holds the fields of the head placed there. An offer of a key already held leaves the entry that ranks
higher by sequence and offset; a new key takes the lowest empty way; in a full bucket the lowest-ranked of the
nine is left out and counted. A segment queued for erase sets its bank's erase flag, and nothing else of RCL
changes while the rebuild goes on. The store is unchanged (R94, R97, R105, R143, R156, R157, R158, R159, R167).
Two things here are the model's choices (log 26): a trailer entry of a kind other than a chunk, a block and a head
adds nothing, and a close code that names no reason, such as 0, reads as none. -/
def Obligations.ScanReadClassifiesSlab : Prop :=
  (∀ (n seq : Nat) (r : Recipe) (before after : List Byte),
    n < 2 ^ 32 → r.branch < 2 ^ 16 → r.profileNo < 2 ^ 8 → r.label.length = 16 → r.openDay < 2 ^ 16 →
    r.retentionDays < 2 ^ 16 → r.expiryDay < 2 ^ 16 → r.recordCount < 2 ^ 32 → r.byteTotal < 2 ^ 64 →
    r.blockCount = r.blocks.length → r.blocks.length < 2 ^ 16 → r.closeReason ≠ some .abort →
    (∀ l ∈ r.blocks, l.seq < 2 ^ 32 ∧ l.offset < 2 ^ 32) →
    headCandidate seq before.length (before ++ headBytes n r ++ after) =
      (n, { r with head := some ⟨seq, before.length⟩, state := .live, job := none, damaged := false })) ∧
  (∀ (e : IndexEntry) (index : Assoc IndexEntry), e.offset < 2 ^ 32 → (∀ x ∈ index, x.2.offset < 2 ^ 32) →
    let key (w : Nat) : Nat := e.digest.toNat / 2 ^ 236 * 8 + w
    let way (w : Nat) : Option IndexEntry := assocGet index (key w)
    let same (x : IndexEntry) : Prop := x.digest = e.digest ∧ x.length = e.length
    let below (x y : IndexEntry) : Prop := x.seq < y.seq ∨ (x.seq = y.seq ∧ x.offset < y.offset)
    (∀ w x, w < 8 → way w = some x → same x → (∀ v y, v < w → way v = some y → ¬ same y) →
      (below x e → offerEntry e index = (false, assocSet index (key w) e)) ∧
      (¬ below x e → offerEntry e index = (false, index))) ∧
    ((∀ w x, w < 8 → way w = some x → ¬ same x) →
      (∀ w, w < 8 → way w = none → (∀ v < w, way v ≠ none) →
        offerEntry e index = (false, assocSet index (key w) e)) ∧
      (∀ w x, w < 8 → way w = some x → (∀ v, v < 8 → v ≠ w → ∃ y, way v = some y ∧ below x y) →
        (below x e → offerEntry e index = (true, assocSet index (key w) e)) ∧
        (¬ below x e → offerEntry e index = (true, index))))) ∧
  ∀ (b : Fin 4) (p : Place) (off len : Nat) (result : OpResult) (r : Rebuild) (s : State),
    (s.bank b).running = some (.read ⟨.scan, p, off, len⟩) → s.cfg.rebuild = some r →
    s.cfg.mode = .rebuilding →
    let bytes := readSlabRun s.store p off len
    let seq := field bytes 262080 4
    let valid : Prop := result = .ok ∧ slabCondition p bytes = .valid ∧ s.plu.mapped seq = false
    let blank : Prop := result = .ok ∧ slabCondition p bytes = .blank
    let up (n : Nat) (k : Bool) : Nat := if k then Nat.min (n + 1) (2 ^ 48 - 1) else n
    let old := (assocGet r.tallies p.segment).getD ⟨0, 0, 0⟩
    ∃ (t : State) (isValid isBlank : Bool), exec (.scanReadComplete b result) s = .next t ∧
      (isValid = true ↔ valid) ∧ (isBlank = true ↔ blank) ∧
      t.cfg.counters.slabsValid = up s.cfg.counters.slabsValid isValid ∧
      t.cfg.counters.slabsBlank = up s.cfg.counters.slabsBlank isBlank ∧
      t.cfg.counters.slabsTorn = up s.cfg.counters.slabsTorn (!isValid && !isBlank) ∧
      (isValid = true → t.plu.placeOf seq = some p) ∧
      (∀ q, q ≠ seq ∨ isValid = false → t.plu.mapped q = s.plu.mapped q) ∧
      (let left : Prop := r.issued[b] < 32 * ((s.cfg.inForce[24] + 3 - b.val) / 4)
      let next : ReadJob := ⟨.scan, ⟨b.val + 4 * (r.issued[b] / 32), r.issued[b] % 32⟩, 0, 262144⟩
      let reads (k : Bank) : List ReadJob := match k.running with
        | some (.read j) => j :: k.readQueue
        | _ => k.readQueue
      (∀ r', t.cfg.rebuild = some r' → r'.classified = r.classified + 1 ∧
        (left → r'.issued[b] = r.issued[b] + 1) ∧ (¬ left → r'.issued[b] = r.issued[b])) ∧
      (BankWork s → r.classified + 1 ≠ 32 * s.cfg.inForce[24] →
        (left → reads (t.bank b) = (s.bank b).readQueue ++ [next]) ∧
        (¬ left → reads (t.bank b) = (s.bank b).readQueue) ∧
        ∀ b', b' ≠ b → reads (t.bank b') = reads (s.bank b'))) ∧
      (old.valid + old.torn + old.blank = 31 →
        let g := assocGet t.plu.segments p.segment
        (0 < old.valid ∨ isValid = true → g = some .closed) ∧
        (old.valid = 0 → isValid = false → (0 < old.torn ∨ isBlank = false) →
          g = some .condemned ∨ g = some .erasing) ∧
        (old.valid = 0 → old.torn = 0 → isBlank = true → g = some .free)) ∧
      (let entry (i : Nat) : List Byte := bytes.drop (262080 - 64 * (i + 1))
      let ofKind (k : Nat) : List Nat := (List.range (if isValid then field bytes 262088 2 else 0)).filter
        (fun i => field (entry i) 0 1 = k)
      let offers := (ofKind 1).foldl (fun acc i =>
        let o := offerEntry ⟨digestAt (entry i) 12, field (entry i) 8 4, seq, field (entry i) 4 4⟩ acc.1
        (o.2, up acc.2 o.1)) (s.dix.index, s.cfg.counters.leftOut)
      t.dix = { s.dix with index := offers.1 } ∧ t.cfg.counters.leftOut = offers.2 ∧
      t.cfg.counters.headsFound = (ofKind 3).foldl (fun n _ => up n true) s.cfg.counters.headsFound ∧
      ∀ r', t.cfg.rebuild = some r' →
        r'.heads = r.heads ++ (ofKind 3).map (fun i => headCandidate seq (field (entry i) 4 4) bytes) ∧
        (∀ n, r'.highestRecipe = some n ↔
          (r.highestRecipe = some n ∨ ∃ i, (i ∈ ofKind 2 ∨ i ∈ ofKind 3) ∧ field (entry i) 12 4 = n) ∧
          (∀ m, r.highestRecipe = some m → m ≤ n) ∧
          ∀ i, i ∈ ofKind 2 ∨ i ∈ ofKind 3 → field (entry i) 12 4 ≤ n) ∧
        r'.highestSeq = (if isValid then some (Nat.max seq (r.highestSeq.getD seq)) else r.highestSeq)) ∧
      (old.valid + old.torn + old.blank ≠ 31 → t.plu.segments = s.plu.segments) ∧
      (let torn : Prop := old.valid + old.torn + old.blank = 31 ∧ old.valid = 0 ∧ isValid = false ∧
        (0 < old.torn ∨ isBlank = false)
      (torn → t.rcl.eraseFlags[bankOf p.segment] = true) ∧
      (t.cfg.rebuild ≠ none →
        (torn → t.rcl = { s.rcl with eraseFlags := s.rcl.eraseFlags.set (bankOf p.segment) true }) ∧
        (¬ torn → t.rcl = s.rcl))) ∧
      ((t.bank b).flags.read = ((s.bank b).flags.read || decide (result = .fail))) ∧
      t.store = s.store ∧ t.slots = s.slots

/-- The last scan read judges the catalog. Expired unprotected heads are dropped, one head of the highest
sequence is kept for each recipe number, and both are counted. With more than 4,096 left the rebuild ends
OVER_CAPACITY in STANDBY with nothing made. Otherwise they are the catalog, and the recount begins: one
reference for each head and block at its slab, up to 2^32 - 1; an entry with an absent block is damaged; and
each bank is asked for the first 32 of its present blocks, by recipe number and block index, the others waiting
(that the read just completed is none of the 32 is the model's inference, log 9, and that its bank chooses after
all of this another, log 7). A read of the recount ends. Data whose header matches gives one reference for each
record to the slab it names, up to 2^32 - 1, and marks the entry damaged where a slab is absent; a header that
does not match, or a read failure, counts none and marks the entry damaged, and a failure counts a walk read
fault. The next block of that bank that waits to be asked for is asked for: its read stands behind those waiting
there, or runs. With the last read the rebuild ends COMPLETE in OPERATING: the next sequence skips 16 above the
highest found, the floor is the highest found, the next recipe number skips 64, or stands at 2^32 where the
numbers are used up, which is the model's mark (log 25), and the recipes live and recipes damaged are counted. An
owed expiry scan is then run (O31 says what it does). The bank erase flags are set to match the banks, and a bank
whose flag was set and stays set is given no condemn; every CLOSED segment is judged, the candidates listed in the
order of R145, and one pass made over them (O36 says what a pass does; in REBUILDING no candidate is listed, as O58
says). A recount without a block to read ends at once (R72, R85, R106, R134, R144, R145, R148, R151, R153, R160,
R161, R162, R163, R164, R167). -/
def Obligations.RecountReadsCountReferences : Prop :=
  let job (s : State) (x : Nat × Nat) : Option ReadJob := (assocGet s.rcu.catalog x.1).bind (fun c =>
    c.blocks[x.2]?.bind (fun l => (s.plu.placeOf l.seq).map (fun p => ⟨.recount x.1 x.2, p, l.offset,
      64 + 44 * (if x.2 + 1 < c.blocks.length then 4096 else c.recordCount - 4096 * x.2)⟩)))
  let reads (s : State) (xs : List (Nat × Nat)) (b : Fin 4) : List ReadJob :=
    (xs.filterMap (job s)).filter (fun j => bankOf j.place.segment = b)
  let resumed (r : Rebuild) (s t : State) : Prop :=
    t.cfg.mode = .operating ∧ t.cfg.result = .complete ∧ t.cfg.rebuild = none ∧ t.rtn.scanOwed = false ∧
    t.plu.floor = r.highestSeq ∧
    t.plu.nextSeq = some (match r.highestSeq with
      | some h => Nat.min (h + 16) 4294967295
      | none => 16) ∧
    t.rcu.nextRecipe = some (match r.highestRecipe with
      | some h => Nat.min (h + 64) (2 ^ 32)
      | none => 64) ∧
    (∀ b : Fin 4, t.rcl.eraseFlags[b] = ((t.bank b).held.isSome || (t.plu.nextCondemned b).isSome) ∧
      (s.rcl.eraseFlags[b] = true → t.rcl.eraseFlags[b] = true →
        t.rcl.outstanding[b] = s.rcl.outstanding[b])) ∧
    (kindEnabled s.rpu.mask .rebuildDone = true → deviceNotice .rebuildDone ∈ t.rpu.notices)
  (∀ (r : Rebuild) (s : State), s.cfg.rebuild = some r →
    let up (n k : Nat) : Nat := Nat.min (n + k) (2 ^ 48 - 1)
    let entered := { s with
      plu.nextSeq := some (match r.highestSeq with
        | some h => Nat.min (h + 16) 4294967295
        | none => 16)
      plu.floor := r.highestSeq
      rcu.nextRecipe := some (match r.highestRecipe with
        | some h => Nat.min (h + 64) (2 ^ 32)
        | none => 64)
      cfg := { s.cfg with
        mode := .operating
        result := .complete
        rebuild := none
        counters := { s.cfg.counters with
          recipesLive := up 0 s.rcu.catalog.length
          recipesDamaged := up 0 (s.rcu.catalog.filter (fun e => e.2.damaged)).length } } }
    (s.rtn.scanOwed = false → resumption s = raise (deviceNotice .rebuildDone) (reclaimOnEntry entered)) ∧
    (s.rtn.scanOwed = true → resumption s = raise (deviceNotice .rebuildDone)
      (reclaimOnEntry { expiryScan none entered with rtn.scanOwed := false }))) ∧
  (∀ s : State, s.cfg.mode = .operating → s.rcl.candidates = [] → AssocWf s.plu.map → AssocWf s.plu.segments →
    let inSeg (g q : Nat) : Prop := (s.plu.placeOf q).map Place.segment = some g
    let candidate (g : Nat) : Prop := assocGet s.plu.segments g = some .closed ∧
      (∀ q e, assocGet s.plu.map q = some e → inSeg g q → e.count = 0 ∧ q ∉ s.plu.buffered) ∧
      (∀ f, s.plu.floor = some f → ¬ inSeg g f) ∧
      ∀ (b : Fin 4) k, s.rcl.outstanding[b] = some k → k.segment ≠ g
    let ahead (x y : Candidate) : Prop := match x.key, y.key with
      | none, none => x.segment < y.segment
      | none, some _ => True
      | some _, none => False
      | some m, some n => m < n
    ∃ (flags : Vector Bool 4) (list : List Candidate),
      (∀ b : Fin 4, flags[b] = ((s.bank b).held.isSome || (s.plu.nextCondemned b).isSome)) ∧
      (∀ g, (∃ x ∈ list, x.segment = g) ↔ candidate g) ∧
      (∀ x ∈ list, (x.key = none ↔ ∀ q, ¬ inSeg x.segment q) ∧
        ∀ q, x.key = some q → inSeg x.segment q ∧ ∀ q', inSeg x.segment q' → q ≤ q') ∧
      list.Pairwise ahead ∧
      reclaimOnEntry s = { s with rcl :=
        ({ s.rcl with eraseFlags := flags, candidates := list } : Rcl).passOver (s.cfg.inForce[21] = 1) list }) ∧
  (∀ (b : Fin 4) (p : Place) (off len : Nat) (result : OpResult) (r : Rebuild) (s : State),
    (s.bank b).running = some (.read ⟨.scan, p, off, len⟩) → s.cfg.rebuild = some r →
    r.classified + 1 = 32 * s.cfg.inForce[24] →
    ∃ u r', exec (.scanReadComplete b result) s = act (stoppingCheck (finishBank b (catalogJudgement b u))) ∧
      u.cfg.rebuild = some r' ∧ r'.classified = r.classified + 1 ∧ r.heads <+: r'.heads ∧ u.rtn = s.rtn ∧
      u.cfg.mode = s.cfg.mode ∧ u.rcu = s.rcu) ∧
  (∀ (b : Fin 4) (r : Rebuild) (s : State), s.cfg.rebuild = some r →
    let m := s.rtn.memory
    let due (x : Recipe) : Bool := x.expiryDay < m.day &&
      (assocGet m.holds x.branch).all (fun start => x.expiryDay < start)
    let kept := r.heads.filter (fun e => !due e.2)
    let sequence (x : Recipe) : Nat := (x.head.map Location.seq).getD 0
    let up (n k : Nat) : Nat := Nat.min (n + k) (2 ^ 48 - 1)
    ∃ catalog : Assoc Recipe, AssocWf catalog ∧
      (∀ n x, (n, x) ∈ kept → assocGet catalog n ≠ none) ∧
      (∀ n x, assocGet catalog n = some x →
        (n, x) ∈ kept ∧ ∀ y, (n, y) ∈ kept → sequence y ≤ sequence x) ∧
      let counted := { s with cfg.counters := { s.cfg.counters with
        headsExpired := up s.cfg.counters.headsExpired (r.heads.length - kept.length)
        headsSuperseded := up s.cfg.counters.headsSuperseded (kept.length - catalog.length) } }
      (4096 < catalog.length → catalogJudgement b s = raise (deviceNotice .rebuildDone) { counted with
        cfg := { counted.cfg with result := .overCapacity, mode := .standby, rebuild := none }
        rtn.scanOwed := false }) ∧
      (catalog.length ≤ 4096 → catalogJudgement b s = beginRecount b { counted with rcu.catalog := catalog })) ∧
  (∀ (b : Fin 4) (r : Rebuild) (s : State), s.cfg.rebuild = some r → AssocWf s.rcu.catalog →
    let objects := s.rcu.catalog.flatMap (fun e => e.2.head.toList.map Location.seq ++ e.2.blocks.map Location.seq)
    let present : List (Nat × Nat) := s.rcu.catalog.flatMap (fun e =>
      (e.2.blocks.zipIdx.filter (fun l => s.plu.mapped l.1.seq)).map (fun l => (e.1, l.2)))
    let t := beginRecount b s
    ∃ v : State, v = { s with plu.map := v.plu.map, rcu.catalog := v.rcu.catalog } ∧
    (∀ q, (assocGet s.plu.map q = none → assocGet v.plu.map q = none) ∧
      ∀ e, assocGet s.plu.map q = some e → e.count ≤ 4294967295 → assocGet v.plu.map q = some { e with
        count := Nat.min (e.count + objects.count q) 4294967295 }) ∧
    v.rcu.catalog = s.rcu.catalog.map (fun e => (e.1, { e.2 with
      damaged := e.2.damaged || e.2.blocks.any (fun l => !s.plu.mapped l.seq) })) ∧
    (present = [] → t = resumption v ∧ resumed r s t) ∧
    (present ≠ [] →
      t.plu.map = v.plu.map ∧ t.rcu.catalog = v.rcu.catalog ∧
      (∃ r', t.cfg.rebuild = some r' ∧ r'.phase = .recount ∧ r'.blocksLeft = present.length ∧
        ((∀ b' : Fin 4, (s.bank b').readQueue = []) →
          (∀ e, (s.bank b).held = some e → e.condition ≠ .running) →
          (∃ j, (s.bank b).running = some (.read j)) →
          (∀ b' j, b' ≠ b → (s.bank b').running ≠ some (.read j)) →
          (∀ b' : Fin 4, reads s r'.toIssue b' = (reads s present b').drop 32) ∧
          (t.bank b).running = (s.bank b).running ∧ (t.bank b).readQueue = (reads s present b).take 32 ∧
          (∀ b' : Fin 4, b' ≠ b → (match (t.bank b').running with
            | some (.read j) => [j]
            | _ => []) ++ (t.bank b').readQueue = (reads s present b').take 32))) ∧
      t.cfg.mode = s.cfg.mode ∧ t.store = s.store ∧ t.dix = s.dix ∧ t.rtn = s.rtn)) ∧
  ∀ (b : Fin 4) (n k : Nat) (p : Place) (off len : Nat) (result : OpResult) (r : Rebuild) (s : State),
    (s.bank b).running = some (.read ⟨.recount n k, p, off, len⟩) → s.cfg.rebuild = some r →
    s.cfg.mode = .rebuilding →
    let bytes := readSlabRun s.store p off len
    (∀ c, assocGet s.rcu.catalog n = some c →
      let held := if k + 1 < c.blocks.length then 4096 else c.recordCount - 4096 * k
      let named := (List.range held).map (fun j => field bytes (64 + 44 * j + 32) 4)
      let sound : Prop := result = .ok ∧ field bytes 0 4 = n ∧ field bytes 4 2 = k ∧ field bytes 6 2 = held ∧
        field bytes 8 4 = 4096 * k
      let bankReads (k : Bank) : List ReadJob := match k.running with
        | some (.read j) => j :: k.readQueue
        | _ => k.readQueue
      ∃ (d : Bool) (r' : Rebuild) (u : State),
        (sound → ∀ q, (assocGet s.plu.map q = none → assocGet u.plu.map q = none) ∧
          ∀ e, assocGet s.plu.map q = some e → e.count ≤ 4294967295 →
            assocGet u.plu.map q = some { e with count := Nat.min (e.count + named.count q) 4294967295 }) ∧
        (¬ sound → u.plu.map = s.plu.map) ∧
        u.rcu.catalog = assocSet s.rcu.catalog n { c with damaged := d } ∧
        (d = true ↔ c.damaged = true ∨ ¬ sound ∨ ∃ q ∈ named, s.plu.mapped q = false) ∧
        u.rcu = { s.rcu with
          catalog := u.rcu.catalog
          counters.walkReadFaults := (if result = .fail then Nat.min (s.rcu.counters.walkReadFaults + 1) (2 ^ 48 - 1)
            else s.rcu.counters.walkReadFaults) } ∧
        u.plu.segments = s.plu.segments ∧ u.plu.placeOf = s.plu.placeOf ∧ u.plu.buffered = s.plu.buffered ∧
        u.rcl = s.rcl ∧ u.rtn = s.rtn ∧ u.store = s.store ∧ u.cfg = { s.cfg with rebuild := some r' } ∧
        r' = { r with toIssue := r'.toIssue } ∧
        reads s r'.toIssue b = (reads s r.toIssue b).drop 1 ∧
        (∀ b' : Fin 4, b' ≠ b → reads s r'.toIssue b' = reads s r.toIssue b') ∧
        (BankWork s → bankReads (u.bank b) =
          (bankReads (s.bank b)) ++ (reads s r.toIssue b).take 1) ∧
        (1 < r.blocksLeft → ∃ t,
          exec (.recountReadComplete b result) s = act (stoppingCheck (finishBank b
            { u with cfg.rebuild := some { r' with blocksLeft := r.blocksLeft - 1 } })) ∧
          exec (.recountReadComplete b result) s = .next t ∧
          t.plu.map = u.plu.map ∧ t.rcu = u.rcu ∧ t.cfg.mode = .rebuilding ∧ t.store = s.store ∧
          t.cfg.rebuild = some { r' with blocksLeft := r.blocksLeft - 1 } ∧
          (BankWork s →
            bankReads (t.bank b) = (s.bank b).readQueue ++ (reads s r.toIssue b).take 1)) ∧
        (r.blocksLeft ≤ 1 →
          exec (.recountReadComplete b result) s = act (stoppingCheck (finishBank b (resumption u))))) ∧
    (r.blocksLeft ≤ 1 →
      ∃ t, exec (.recountReadComplete b result) s = .next t ∧ resumed r s t ∧ t.store = s.store)

/-- An erase that completes OK leaves its segment BLANK and the rest of the store as it was, and the segment
can be opened again: it stays FREE when no slab and no stream waits. Slabs on the wait list take its slabs from
0 on in ascending order, each with its count as it was and its program at the bank unless it is filling; the
list empties, and the segment becomes OPEN where none is, else CLOSED and judged as a candidate (O50 says what a
judgement does). Placement available is announced after it. One that fails retires the segment, each of whose slabs is left as it was or not VALID; the failure is
recorded and STORE_FAULT raised. Either way the completion is counted, the bank is given its next CONDEMNED
segment, and with none the bank erase flag is cleared (R74, R78, R80, R88, R96, R97, R144, R151, R152, R154; that a
failed erase makes no slab VALID is the model's inference, log 14, and so is the order of these effects,
log 24 and log 7). -/
def Obligations.EraseCompleteFreesOrRetires : Prop :=
  ∀ (b : Fin 4) (g : Nat) (s : State),
    (s.bank b).running = some (.erase g) → assocGet s.plu.segments g = some .erasing → OneOpen s →
    (∃ t, exec (.eraseComplete b .ok) s = .next t ∧
      (∀ a, inSegment g a → readByte t.store a = 0xFF#8) ∧
      (∀ a, ¬ inSegment g a → readByte t.store a = readByte s.store a) ∧
      ((assocGet t.plu.segments g = some .free ∨ assocGet t.plu.segments g = some .closed ∨
        ∃ n, assocGet t.plu.segments g = some (.opened n))) ∧
      (s.plu.waitList = [] → (∀ i, (s.slot i).phase ≠ some .deferred) →
        assocGet t.plu.segments g = some .free) ∧
      (∃ u, exec (.eraseComplete b .ok) s =
          act (stoppingCheck (finishBank b (eraseReport b .ok (placementAvailable u)))) ∧
        u.slots = s.slots ∧ u.plu.waitList = [] ∧
        (s.plu.waitList ≠ [] → (∃ h n, assocGet s.plu.segments h = some (.opened n)) →
          u.rcl = (judgeSegment g { u with rcl := s.rcl }).rcl) ∧
        (s.plu.waitList = [] ∨ (∀ h n, assocGet s.plu.segments h ≠ some (.opened n)) → u.rcl = s.rcl)) ∧
      (s.plu.waitList ≠ [] → s.plu.waitList.Pairwise (· < ·) → (∀ i, (s.slot i).phase ≠ some .deferred) →
        t.plu.waitList = [] ∧
        (∀ k q e, s.plu.waitList[k]? = some q → assocGet s.plu.map q = some e →
          assocGet t.plu.map q = some { e with place := some ⟨g, k⟩ } ∧
          ((∀ x, some x ∈ s.plu.buffers.toList → x.state = .filling → x.seq ≠ q) →
            q ∈ (t.bank (bankOf g)).programQueue ∨
              (t.bank (bankOf g)).running = some (.program q ⟨g, k⟩))) ∧
        (∀ q, q ∉ s.plu.waitList → assocGet t.plu.map q = assocGet s.plu.map q) ∧
        ((∀ h n, assocGet s.plu.segments h ≠ some (.opened n)) →
          assocGet t.plu.segments g = some (.opened s.plu.waitList.length)) ∧
        ((∃ h n, assocGet s.plu.segments h = some (.opened n)) →
          assocGet t.plu.segments g = some .closed)) ∧
      t.rcl.counters.erasesOk = Nat.min (s.rcl.counters.erasesOk + 1) (2 ^ 48 - 1) ∧
      (s.plu.nextCondemned b = none → (t.bank b).held = none ∧ t.rcl.eraseFlags[b] = false) ∧
      (∀ c, s.plu.nextCondemned b = some c → s.cfg.mode = .operating ∨ s.cfg.mode = .rebuilding →
        ((t.bank b).held).map HeldErase.segment = some c ∧ assocGet t.plu.segments c = some .erasing)) ∧
    (∃ t, exec (.eraseComplete b .fail) s = .next t ∧
      (∀ k, k < 32 → slabCondition ⟨g, k⟩ (readSlab t.store ⟨g, k⟩) ≠ .valid ∨
        readSlab t.store ⟨g, k⟩ = readSlab s.store ⟨g, k⟩) ∧
      (∀ a, ¬ inSegment g a → readByte t.store a = readByte s.store a) ∧
      assocGet t.plu.segments g = some .retired ∧
      (t.bank b).flags = { (s.bank b).flags with erase := true } ∧
      (t.bank b).faults = { (s.bank b).faults with
        erase := Nat.min ((s.bank b).faults.erase + 1) (2 ^ 48 - 1) } ∧
      t.stc.lastFault = some (b, .erase) ∧
      (kindEnabled s.rpu.mask .storeFault = true → deviceNotice .storeFault ∈ t.rpu.notices) ∧
      t.rcl.counters.erasesFailed = Nat.min (s.rcl.counters.erasesFailed + 1) (2 ^ 48 - 1) ∧
      (s.plu.nextCondemned b = none → (t.bank b).held = none ∧ t.rcl.eraseFlags[b] = false) ∧
      (∀ c, s.plu.nextCondemned b = some c → s.cfg.mode = .operating ∨ s.cfg.mode = .rebuilding →
        ((t.bank b).held).map HeldErase.segment = some c ∧ assocGet t.plu.segments c = some .erasing))

/-- A condemn is made exactly when the mode is OPERATING, the segment CLOSED, each of its map entries has count
0 and is in no buffer, and the floor lies elsewhere. Made, it removes the segment's map entries and no others,
the segment waits for its erase or has been given to the bank, and the credit is spent; refused, nothing of
the Placement Unit and of the banks changes, and the credit is returned. A segment judged by the same test joins
the candidate list in OPERATING, unless it is listed or its condemn is outstanding, with the lowest sequence of
its map entries as its key, and a pass runs: segments without a key stand first by number, the others by key. A
give-back that lowers a count to 0 has the slab's segment judged, and no other give-back judges one (R72, R144,
R145, R148, R149, R150, R151, R154). -/
def Obligations.CondemnIsMadeOfEmptySegment : Prop :=
  (∀ (g : Nat) (s : State), AssocWf s.plu.map →
    let list := s.rcl.candidates
    let inSeg (q : Nat) : Prop := (s.plu.placeOf q).map Place.segment = some g
    let candidate : Prop := s.cfg.mode = .operating ∧ assocGet s.plu.segments g = some .closed ∧
      (∀ q e, assocGet s.plu.map q = some e → inSeg q → e.count = 0 ∧ q ∉ s.plu.buffered) ∧
      (∀ f, s.plu.floor = some f → ¬ inSeg f)
    let known : Prop := (∃ c ∈ list, c.segment = g) ∨
      ∃ (b : Fin 4) (k : Condemn), s.rcl.outstanding[b] = some k ∧ k.segment = g
    let ahead (x y : Candidate) : Prop := match x.key, y.key with
      | none, none => x.segment < y.segment
      | none, some _ => True
      | some _, none => False
      | some m, some n => m < n
    let ordered (l : List Candidate) : Prop := l.Pairwise (fun x y => ¬ ahead y x)
    (¬ candidate ∨ known → judgeSegment g s = s) ∧
    (candidate → ¬ known → ∃ key before after, list = before ++ after ∧
      (key = none ↔ ∀ q, ¬ inSeg q) ∧ (∀ q, key = some q → inSeg q ∧ ∀ q', inSeg q' → q ≤ q') ∧
      (∀ x ∈ before, ¬ ahead ⟨g, key⟩ x) ∧ (∀ x, after.head? = some x → ahead ⟨g, key⟩ x) ∧
      let listed : Rcl := { s.rcl with candidates := before ++ ⟨g, key⟩ :: after }
      (ordered list → ordered listed.candidates) ∧
      judgeSegment g s = { s with rcl := listed.passOver (s.cfg.inForce[21] = 1) listed.candidates })) ∧
  (∀ (q : Nat) (s : State),
    (assocGet s.plu.map q = none → giveBack q s = s) ∧
    ∀ e, assocGet s.plu.map q = some e →
      let lowered := { s with plu.map := assocSet s.plu.map q { e with
        count := if e.count < 4294967295 then e.count - 1 else e.count } }
      (∀ p, e.count = 1 → e.place = some p → giveBack q s = judgeSegment p.segment lowered) ∧
      (e.count ≠ 1 → giveBack q s = lowered)) ∧
  ∀ (b : Fin 4) (c : Condemn) (s : State), s.rcl.outstanding[b] = some c → OneOpen s → AssocWf s.plu.map →
    let up (n k : Nat) : Nat := Nat.min (n + k) (2 ^ 48 - 1)
    let back := if c.reserved then 1 else 0
    let empty : Prop := s.cfg.mode = .operating ∧ assocGet s.plu.segments c.segment = some .closed ∧
      (∀ q e p, assocGet s.plu.map q = some e → e.place = some p → p.segment = c.segment →
        e.count = 0 ∧ q ∉ s.plu.buffered) ∧
      (∀ f p, s.plu.floor = some f → s.plu.placeOf f = some p → p.segment ≠ c.segment)
    (empty → ∃ t, exec (.condemnTaken b) s = .next t ∧
      (∀ q, assocGet t.plu.map q =
        if (s.plu.placeOf q).map Place.segment = some c.segment then none else assocGet s.plu.map q) ∧
      (assocGet t.plu.segments c.segment = some .condemned ∨ assocGet t.plu.segments c.segment = some .erasing) ∧
      ((s.bank (bankOf c.segment)).held = none → s.plu.nextCondemned (bankOf c.segment) = none →
        assocGet t.plu.segments c.segment = some .erasing ∧
        ((t.bank (bankOf c.segment)).held).map HeldErase.segment = some c.segment) ∧
      t.rcl.outstanding[b] = none ∧ t.rcl.eraseFlags[b] = true ∧ t.rcl.creditsHeld = s.rcl.creditsHeld - back ∧
      t.rcl.counters = { s.rcl.counters with
        made := up s.rcl.counters.made 1, creditsSpent := up s.rcl.counters.creditsSpent back } ∧
      t.store = s.store ∧ t.slots = s.slots ∧ t.rcu = s.rcu) ∧
    (¬ empty → ∃ t, exec (.condemnTaken b) s = .next t ∧
      t = { s with rcl := t.rcl, lif := { s.lif with tx := s.lif.tx.map (sealFrame s.rpu.notices.length) } } ∧
      (let back : Rcl := { s.rcl with
        outstanding := s.rcl.outstanding.set b none
        creditsReserved := s.rcl.creditsReserved - back
        counters := { s.rcl.counters with refused := up s.rcl.counters.refused 1 } }
      (s.cfg.mode ≠ .operating → t.rcl = back) ∧
      (s.cfg.mode = .operating → t.rcl = back.passOver (s.cfg.inForce[21] = 1) s.rcl.candidates)))

/-! ## What every step keeps -/

/-- The store stays in its canonical form, and only a completed program, a completed erase and a reset change
it; no command but the step that takes it off touches the queue (R1, R86, R87, R96, R100; the canonical form
and the queue are the model's own, log 6 and log 13). -/
def Obligations.StoreChangesOnlyByProgramsErasesAndResets : Prop :=
  (∀ s t : State, step s = .next t → StoreCanonical s → StoreCanonical t) ∧
  (∀ (c : Instr) (s t : State), exec c s = .next t →
    t.pending = s.pending ∧
    ((∀ b r, c ≠ .programComplete b r) → (∀ b r, c ≠ .eraseComplete b r) → isResetEvent c = false →
      t.store = s.store ∧ t.draws = s.draws))

/-- Retention memory changes only at the completion of a write, to that write's value: the day in force never
falls and rises by at most 7, and a write in flight stays lawful. While the freeze is set and CUSTODY is not
asserted, with no UNHOLD or UNFREEZE in flight, no step starts one, no hold is cleared or moved, and the
freeze stays (R126, R127, R129, R136, R138, R139, R140). -/
def Obligations.RetentionMemoryIsGuarded : Prop :=
  (∀ (c : Instr) (s t : State), exec c s = .next t → t.rtn.memory ≠ s.rtn.memory →
    c = .retentionWriteComplete ∧
      ∃ w, s.rtn.inFlight = some w ∧ t.rtn.memory = applyWrite w s.rtn.memory ∧ t.rtn.inFlight = none) ∧
  (∀ s t : State, step s = .next t → WriteLaw s →
    WriteLaw t ∧ s.rtn.memory.day ≤ t.rtn.memory.day ∧ t.rtn.memory.day ≤ s.rtn.memory.day + 7) ∧
  (∀ s t : State, step s = .next t → WriteLaw s → s.rtn.memory.freeze = true → s.lines.custody = false →
    (∀ w, s.rtn.inFlight = some w → w.releases = false) →
    t.rtn.memory.freeze = true ∧ (∀ w, t.rtn.inFlight = some w → w.releases = false) ∧
    ∀ b start, assocGet s.rtn.memory.holds b = some start → assocGet t.rtn.memory.holds b = some start)

/-- Every step keeps the laws of the intake and of the stream counters: an intake holds at most 262,144 bytes
with the chunk in hand at its head, chunked, dropped and held bytes sum to the accepted length, and new and
duplicate chunks and bytes sum to all (R6, R8, R27). -/
def Obligations.IntakeAndCounterSumsAreKept : Prop :=
  ∀ s t : State, step s = .next t → (IntakeLaw s → IntakeLaw t) ∧ (CounterSums s → CounterSums t)

/-- Every step keeps the chunkers' sums equal to their definition over the window, every setting in its range
with the profiles in force normalised, the law of the phases, and, with the phases lawful, the law of chunk
lengths: every chunk in hand is 1 to MAX bytes long, and at least MIN while the stream is OPEN (R2, R11, R12,
R29, R30, R34, R35, R52, R195, R197). -/
def Obligations.ChunkLawsAreKept : Prop :=
  ∀ s t : State, step s = .next t → (ChunkersRolled s → ChunkersRolled t) ∧ (SettingsLaw s → SettingsLaw t) ∧
    (PhaseLaw s → PhaseLaw t) ∧ (PhaseLaw s → ChunkLaw s → ChunkLaw t)

/-- Every step keeps the law of the index: never two entries of one digest and length, and each entry in the
bucket of its digest's first 20 bits (R40, R46, R48, R158). -/
def Obligations.IndexNeverHoldsTwoOfOneKey : Prop :=
  ∀ s t : State, step s = .next t → IndexLaw s → IndexLaw t

/-- Every step keeps the laws of the slab map and of the segment table: sequences given out lie below the next
one, which no command but Start and a reset takes away and none lowers; at most one segment is OPEN and one
buffer FILLING; and no reference count passes 2^32 - 1 (R63, R66, R68, R70, R72, R73, R164). -/
def Obligations.PlacementLawsAreKept : Prop :=
  (∀ s t : State, step s = .next t →
    (SequenceLaw s → SequenceLaw t) ∧ (OneOpen s → OneOpen t) ∧ (CountsWithin s → CountsWithin t)) ∧
  (∀ (c : Instr) (s t : State) (n : Nat), exec c s = .next t → SequenceLaw s → s.plu.nextSeq = some n →
    (∀ m, t.plu.nextSeq = some m → n ≤ m) ∧
    (t.plu.nextSeq = none → isResetEvent c = true ∨ ∃ f, c = .start f))

/-- Every step keeps the recipe catalog within 4,096 entries of distinct numbers, the notice set free of
repeats and of kinds turned off, and the banks' reads and erases on their own banks, with no erase suspended
more than 15 times and each that runs held in condition RUNNING (R60, R84, R85, R91, R106, R168, R169, R172). -/
def Obligations.CatalogNoticesAndBanksAreKept : Prop :=
  ∀ s t : State, step s = .next t →
    (CatalogLaw s → CatalogLaw t) ∧ (NoticeLaw s → NoticeLaw t) ∧ (BankWork s → BankWork t)

/-- Outside a rebuild a CLOSED segment becomes CONDEMNED or ERASING only when PLU takes its condemn in
OPERATING, with every slab's count 0, none in a fill buffer and the floor elsewhere; and a segment that is
CONDEMNED or ERASING holds no map entry, so no reference to its slabs stands or is accepted. In STANDBY and
REBUILDING no condemn is outstanding, and outside OPERATING no candidate is listed, a law that every step keeps
(R71, R145, R149, R153; that the last ones are refused
in the action that ends STOPPING is the model's choice, log 34). -/
def Obligations.OnlyEmptySegmentsAreCondemned : Prop :=
  (∀ (c : Instr) (g : Nat) (s t : State), exec c s = .next t → OneOpen s → AssocWf s.plu.map →
    s.cfg.rebuild = none → assocGet s.plu.segments g = some .closed →
    assocGet t.plu.segments g = some .condemned ∨ assocGet t.plu.segments g = some .erasing →
    (∃ b k, c = .condemnTaken b ∧ s.rcl.outstanding[b] = some k ∧ k.segment = g) ∧
    s.cfg.mode = .operating ∧
    (∀ q e p, assocGet s.plu.map q = some e → e.place = some p → p.segment = g →
      e.count = 0 ∧ q ∉ s.plu.buffered) ∧
    (∀ f p, s.plu.floor = some f → s.plu.placeOf f = some p → p.segment ≠ g)) ∧
  (∀ (c : Instr) (s t : State), exec c s = .next t → OneOpen s → AssocWf s.plu.map → s.cfg.rebuild = none →
    let emptied (u : State) : Prop := ∀ g q p,
      (assocGet u.plu.segments g = some .condemned ∨ assocGet u.plu.segments g = some .erasing) →
      u.plu.placeOf q = some p → p.segment ≠ g
    emptied s → emptied t) ∧
  (∀ s t : State, step s = .next t → CondemnLaw s → CondemnLaw t)

/-- A stream in COMMITTING becomes DONE only at a program completion OK, with outcome COMMITTED, when every
slab given out whose sequence is at most its head's has been programmed (R22, R76; that an advance commits none is
the model's inference, log 22). -/
def Obligations.CommitOnlyWhenDurable : Prop :=
  ∀ (c : Instr) (i : Fin 64) (h : Nat) (s t : State), exec c s = .next t → SequenceLaw s →
    (s.slot i).state = .committing → (s.slot i).headSeq = some h → (t.slot i).state = .done →
    (∃ b seq p, c = .programComplete b .ok ∧ (s.bank b).running = some (.program seq p) ∧
      (∀ q ∈ s.plu.buffered, q ≠ seq → h < q)) ∧
    (∀ q ∈ t.plu.buffered, h < q) ∧ (∀ n, s.plu.nextSeq = some n → h < n) ∧
    (t.slot i).outcome = some .committed

/-- In OPERATING no command but a reset removes, queues or changes a committed recipe that is protected: its
branch is held from a day no later than its expiry day. The recipe stays settled, so that with the law of the
phases, which every step keeps (O54), this holds over any run of commands in OPERATING (R109, R111, R131, R132,
R133). -/
def Obligations.ProtectedRecipeStaysLive : Prop :=
  ∀ (c : Instr) (n : Nat) (r : Recipe) (start : Nat) (s t : State), exec c s = .next t →
    isResetEvent c = false → s.cfg.mode = .operating → s.cfg.rebuild = none → SettledRecipe n r s →
    assocGet t.rtn.memory.holds r.branch = some start → start ≤ r.expiryDay →
    assocGet t.rcu.catalog n = some r ∧ t.cfg.rebuild = none ∧ (PhaseLaw s → SettledRecipe n r t)
end

