-- ==== Sys2Proof/Laws/Memory.lean ====
section
/-! SUPPORT. The laws of the store's bytes and of finite maps: every operation keeps the canonical form, a read
after a write gives what was written, and nothing else moves. -/

namespace Sys2Proof.Machine

/-! ## Finite maps -/

@[simp] theorem assocGet_assocSet_self {α : Type} (m : Assoc α) (q : Nat) (w : α) :
    assocGet (assocSet m q w) q = some w := by
  induction m with
  | nil => simp [assocSet, assocGet]
  | cons e rest ih =>
    obtain ⟨k, v⟩ := e
    simp only [assocSet]
    split
    · simp [assocGet]
    · split
      · simp [assocGet]
      · rename_i h
        simp [assocGet, Ne.symm h, ih]

theorem assocGet_assocSet_other {α : Type} (m : Assoc α) (q k : Nat) (w : α) (h : k ≠ q) :
    assocGet (assocSet m q w) k = assocGet m k := by
  induction m with
  | nil => simp [assocSet, assocGet, Ne.symm h]
  | cons e rest ih =>
    obtain ⟨j, v⟩ := e
    simp only [assocSet]
    split
    · simp [assocGet, Ne.symm h]
    · split
      · rename_i hq
        subst hq
        simp [assocGet, Ne.symm h]
      · simp only [assocGet, ih]

theorem mem_assocSet {α : Type} {m : Assoc α} {q : Nat} {w : α} {e : Nat × α} (h : e ∈ assocSet m q w) :
    e = (q, w) ∨ e ∈ m := by
  induction m with
  | nil => simpa [assocSet] using h
  | cons x rest ih =>
    obtain ⟨k, v⟩ := x
    simp only [assocSet] at h
    split at h
    · simpa using h
    · split at h
      · simp only [List.mem_cons] at h ⊢
        tauto
      · simp only [List.mem_cons] at h ⊢
        rcases h with h | h
        · exact Or.inr (Or.inl h)
        · rcases ih h with h | h <;> tauto

/-- Setting a key keeps a map's canonical form. -/
theorem assocSet_wf {α : Type} {m : Assoc α} (h : AssocWf m) (q : Nat) (w : α) : AssocWf (assocSet m q w) := by
  induction m with
  | nil => simp [assocSet, AssocWf]
  | cons x rest ih =>
    obtain ⟨k, v⟩ := x
    simp only [AssocWf, List.map_cons, List.pairwise_cons, List.mem_map, forall_exists_index, and_imp] at h
    obtain ⟨hk, hr⟩ := h
    simp only [assocSet]
    split
    · rename_i hq
      simp only [AssocWf, List.map_cons, List.pairwise_cons, List.mem_cons, List.mem_map]
      refine ⟨?_, ?_, hr⟩
      · rintro a (rfl | ⟨b, hb, rfl⟩)
        · exact hq
        · exact lt_trans hq (hk _ b hb rfl)
      · rintro a ⟨b, hb, rfl⟩
        exact hk _ b hb rfl
    · split
      · rename_i hq
        subst hq
        simp only [AssocWf, List.map_cons, List.pairwise_cons, List.mem_map]
        refine ⟨?_, hr⟩
        rintro a ⟨b, hb, rfl⟩
        exact hk _ b hb rfl
      · rename_i h1 h2
        simp only [AssocWf, List.map_cons, List.pairwise_cons, List.mem_map]
        refine ⟨?_, ih hr⟩
        rintro a ⟨b, hb, rfl⟩
        rcases mem_assocSet hb with rfl | hb
        · simp only
          omega
        · exact hk _ b hb rfl

/-- Keeping some of a map's entries keeps its canonical form. -/
theorem filter_wf {α : Type} {m : Assoc α} (h : AssocWf m) (p : Nat × α → Bool) : AssocWf (m.filter p) :=
  List.Pairwise.sublist (List.filter_sublist.map _) h

/-- Removing a key keeps a map's canonical form. -/
theorem assocErase_wf {α : Type} {m : Assoc α} (h : AssocWf m) (q : Nat) : AssocWf (assocErase m q) := filter_wf h _

theorem assocGet_assocErase {α : Type} (m : Assoc α) (q k : Nat) :
    assocGet (assocErase m q) k = if k = q then none else assocGet m k := by
  induction m with
  | nil => simp [assocErase, assocGet]
  | cons e rest ih =>
    obtain ⟨j, v⟩ := e
    simp only [assocErase] at ih ⊢
    simp only [List.filter_cons]
    by_cases hj : j = q
    · subst hj
      simp only [bne_self_eq_false, Bool.false_eq_true, if_false, ih, assocGet]
      by_cases hk : k = j
      · simp [hk]
      · simp [hk, Ne.symm hk]
    · simp only [bne_iff_ne, ne_eq, hj, not_false_eq_true, if_true, assocGet, ih]
      by_cases hk : k = q
      · subst hk
        simp [hj]
      · simp [hk]

/-! ## The bytes of the store -/

/-- The cells of a run have rising addresses inside the run and hold no blank byte. -/
theorem runCells_wf (a : Nat) (bs : List Byte) :
    ((runCells a bs).map Prod.fst).Pairwise (· < ·) ∧
      ∀ c ∈ runCells a bs, c.2 ≠ blankByte ∧ a ≤ c.1 ∧ c.1 < a + bs.length := by
  induction bs generalizing a with
  | nil => simp [runCells]
  | cons b rest ih =>
    obtain ⟨ih1, ih2⟩ := ih (a + 1)
    simp only [runCells]
    split
    · refine ⟨ih1, fun c hc => ?_⟩
      obtain ⟨h1, h2, h3⟩ := ih2 c hc
      exact ⟨h1, by omega, by simp only [List.length_cons]; omega⟩
    · rename_i hb
      refine ⟨?_, ?_⟩
      · simp only [List.map_cons, List.pairwise_cons, List.mem_map]
        refine ⟨?_, ih1⟩
        rintro k ⟨c, hc, rfl⟩
        have := (ih2 c hc).2.1
        omega
      · intro c hc
        rcases List.mem_cons.1 hc with rfl | hc
        · exact ⟨hb, le_refl _, by simp⟩
        · obtain ⟨h1, h2, h3⟩ := ih2 c hc
          exact ⟨h1, by omega, by simp only [List.length_cons]; omega⟩

theorem filter_cells_wf {m : List Host.Cell} (h : Memory.wf m) (p : Host.Cell → Bool) : Memory.wf (m.filter p) :=
  ⟨List.Pairwise.sublist (List.filter_sublist.map _) h.1, fun c hc => h.2 c (List.mem_of_mem_filter hc)⟩

/-- A write of a run keeps the canonical form. -/
theorem writeRun_wf {m : List Host.Cell} (h : Memory.wf m) (base : Nat) (bs : List Byte) :
    Memory.wf (writeRun m base bs) := by
  obtain ⟨r1, r2⟩ := runCells_wf base bs
  have lo := filter_cells_wf h (fun c => decide (c.1 < base))
  have hi := filter_cells_wf h (fun c => decide (base + bs.length ≤ c.1))
  refine ⟨?_, ?_⟩
  · simp only [writeRun, List.map_append, List.pairwise_append, List.mem_append, List.mem_map]
    refine ⟨⟨lo.1, r1, ?_⟩, hi.1, ?_⟩
    · rintro a ⟨c, hc, rfl⟩ b ⟨d, hd, rfl⟩
      have h1 := of_decide_eq_true (List.mem_filter.1 hc).2
      have h2 := (r2 d hd).2.1
      exact lt_of_lt_of_le h1 h2
    · rintro a (⟨c, hc, rfl⟩ | ⟨c, hc, rfl⟩) b ⟨d, hd, rfl⟩
      · have h1 := of_decide_eq_true (List.mem_filter.1 hc).2
        have h2 := of_decide_eq_true (List.mem_filter.1 hd).2
        omega
      · have h1 := (r2 c hc).2.2
        have h2 := of_decide_eq_true (List.mem_filter.1 hd).2
        exact lt_of_lt_of_le h1 h2
  · intro c hc
    simp only [writeRun, List.mem_append] at hc
    rcases hc with (hc | hc) | hc
    · exact lo.2 c hc
    · exact (r2 c hc).1
    · exact hi.2 c hc

/-- Making a run blank keeps the canonical form. -/
theorem eraseRun_wf {m : List Host.Cell} (h : Memory.wf m) (base n : Nat) : Memory.wf (eraseRun m base n) :=
  filter_cells_wf h _

/-- A programmed slab keeps the canonical form. -/
theorem writeSlab_wf {m : List Host.Cell} (h : Memory.wf m) (p : Place) (image : List Byte) :
    Memory.wf (writeSlab m p image) := writeRun_wf h _ _

/-- An erased segment keeps the canonical form. -/
theorem eraseSegment_wf {m : List Host.Cell} (h : Memory.wf m) (segment : Nat) : Memory.wf (eraseSegment m segment) :=
  eraseRun_wf h _ _

/-- An erase cut off keeps the canonical form. -/
theorem cutErase_wf {m : List Host.Cell} (h : Memory.wf m) (n : List Host.Cell) (segment draw : Nat) (l : List Nat) :
    Memory.wf (l.foldl (fun acc i =>
      writeSlab acc ⟨segment, i⟩ (afterCutErase n ⟨segment, i⟩ (draw + i))) m) := by
  induction l generalizing m with
  | nil => exact h
  | cons i rest ih => exact ih (writeSlab_wf h _ _)

/-- What a reset leaves of one bank's work keeps the canonical form. -/
theorem cutBank_wf (s : State) {m : List Host.Cell} (h : Memory.wf m) (b : Fin 4) : Memory.wf (cutBank s m b) := by
  have key : ∀ n, Memory.wf n → Memory.wf (match (s.bank b).held with
      | some e => if e.condition = .waiting then n
          else cutErase n e.segment (s.draws + (Config.slabsPerSegment + 1) * b.val + 1)
      | none => n) := by
    intro n hn
    cases (s.bank b).held with
    | none => exact hn
    | some e =>
      simp only
      split
      · exact hn
      · exact cutErase_wf hn _ _ _ _
  have program : Memory.wf (match (s.bank b).running with
      | some (.program seq p) => writeSlab m p (afterCutProgram p ((s.plu.bufferOf seq).elim [] bufferImage)
          (s.draws + (Config.slabsPerSegment + 1) * b.val))
      | _ => m) := by
    split
    · exact writeSlab_wf h _ _
    · exact h
  exact key _ program

/-- A reset keeps the store's canonical form. -/
theorem cutStore_wf {s : State} (h : Memory.wf s.store) : Memory.wf (cutStore s) := by
  suffices H : ∀ (l : List (Fin 4)) (m : List Host.Cell), Memory.wf m → Memory.wf (l.foldl (cutBank s) m) from H _ _ h
  intro l
  induction l with
  | nil => exact fun m hm => hm
  | cons b rest ih => exact fun m hm => ih _ (cutBank_wf s hm b)

/-- The store of a new part stands in its canonical form. -/
theorem reset_store_wf : Memory.wf State.reset.store := by simp [State.reset, Memory.wf]

theorem readByte_append (m n : List Host.Cell) (a : Nat) :
    readByte (m ++ n) a = if a ∈ m.map Prod.fst then readByte m a else readByte n a := by
  induction m with
  | nil => simp
  | cons c rest ih =>
    obtain ⟨k, v⟩ := c
    simp only [List.cons_append, readByte, ih, List.map_cons, List.mem_cons]
    by_cases hk : k = a
    · simp [hk]
    · simp [hk, Ne.symm hk]

theorem readByte_filter (m : List Host.Cell) (p : Nat → Bool) (a : Nat) :
    readByte (m.filter (fun c => p c.1)) a = if p a then readByte m a else blankByte := by
  induction m with
  | nil => simp [readByte]
  | cons c rest ih =>
    obtain ⟨k, v⟩ := c
    simp only [List.filter_cons]
    by_cases hk : k = a
    · subst hk
      by_cases hp : p k <;> simp [hp, readByte, ih]
    · by_cases hp : p k <;> simp [hp, readByte, ih, hk]

theorem readByte_blank {m : List Host.Cell} {a : Nat} (h : a ∉ m.map Prod.fst) : readByte m a = blankByte := by
  induction m with
  | nil => rfl
  | cons c rest ih =>
    obtain ⟨k, v⟩ := c
    simp only [List.map_cons, List.mem_cons, not_or] at h
    simp [readByte, Ne.symm h.1, ih h.2]

theorem readByte_runCells (base : Nat) (bs : List Byte) (a : Nat) :
    readByte (runCells base bs) a = if base ≤ a ∧ a < base + bs.length then bs.getD (a - base) blankByte else blankByte := by
  induction bs generalizing base with
  | nil => simp [runCells, readByte]
  | cons b rest ih =>
    simp only [runCells, List.length_cons]
    by_cases ha : a = base
    · subst ha
      split
      · rename_i hb
        rw [ih, if_neg (by omega)]
        simp [hb]
      · simp [readByte]
    · have hs : base + 1 ≤ a → a - base = (a - (base + 1)) + 1 := by omega
      split
      · rw [ih]
        by_cases hin : base + 1 ≤ a ∧ a < base + 1 + rest.length
        · rw [if_pos hin, if_pos (by omega), hs hin.1]; simp
        · rw [if_neg hin, if_neg (by omega)]
      · simp only [readByte, Ne.symm ha, if_false, ih]
        by_cases hin : base + 1 ≤ a ∧ a < base + 1 + rest.length
        · rw [if_pos hin, if_pos (by omega), hs hin.1]; simp
        · rw [if_neg hin, if_neg (by omega)]

/-- What a byte reads as after a write of a run: the byte written inside the run, and the old byte outside. -/
theorem readByte_writeRun (m : List Host.Cell) (base : Nat) (bs : List Byte) (a : Nat) :
    readByte (writeRun m base bs) a =
      if base ≤ a ∧ a < base + bs.length then bs.getD (a - base) blankByte else readByte m a := by
  have lo := readByte_filter m (fun k => decide (k < base)) a
  have hi := readByte_filter m (fun k => decide (base + bs.length ≤ k)) a
  have mlo : a ∈ (m.filter (fun c => decide (c.1 < base))).map Prod.fst → a < base := by
    simp only [List.mem_map, List.mem_filter, decide_eq_true_eq, forall_exists_index, and_imp]
    rintro c - h rfl
    exact h
  have mrun : a ∈ (runCells base bs).map Prod.fst → base ≤ a ∧ a < base + bs.length := by
    simp only [List.mem_map, forall_exists_index, and_imp]
    rintro c hc rfl
    exact ((runCells_wf base bs).2 c hc).2
  rw [writeRun, List.append_assoc, readByte_append, readByte_append]
  by_cases h1 : a < base
  · have hr : a ∉ (runCells base bs).map Prod.fst := fun h => Nat.not_le_of_lt h1 (mrun h).1
    have hin : ¬ (base ≤ a ∧ a < base + bs.length) := by omega
    have hh : ¬ base + bs.length ≤ a := by omega
    simp only [hr, hin, if_false, hi, lo, h1, hh, decide_true, decide_false, if_true, Bool.false_eq_true]
    split
    · rfl
    · rename_i hm
      have hb := readByte_blank hm
      rw [lo] at hb
      simp only [h1, decide_true, if_true] at hb
      exact hb.symm
  · have hlo : a ∉ (m.filter (fun c => decide (c.1 < base))).map Prod.fst := fun h => h1 (mlo h)
    by_cases h2 : a < base + bs.length
    · have hin : base ≤ a ∧ a < base + bs.length := by omega
      have hh : ¬ base + bs.length ≤ a := by omega
      have hr := readByte_runCells base bs a
      simp only [hin, and_self, if_true] at hr
      simp only [hlo, hin, and_self, if_true, if_false, hi, hh, decide_false, Bool.false_eq_true]
      split
      · exact hr
      · rename_i hm
        rw [← hr, readByte_blank hm]
    · have hin : ¬ (base ≤ a ∧ a < base + bs.length) := by omega
      have hh : base + bs.length ≤ a := by omega
      have hr : a ∉ (runCells base bs).map Prod.fst := fun h => h2 (mrun h).2
      simp only [hlo, hin, hr, if_false, hi, hh, decide_true, if_true]

/-- What a byte reads as after a run has been made blank. -/
theorem readByte_eraseRun (m : List Host.Cell) (base n a : Nat) :
    readByte (eraseRun m base n) a = if base ≤ a ∧ a < base + n then blankByte else readByte m a := by
  have h := readByte_filter m (fun k => decide (k < base) || decide (base + n ≤ k)) a
  rw [eraseRun, h]
  by_cases h1 : base ≤ a ∧ a < base + n
  · rw [if_pos h1, if_neg]
    simp only [Bool.or_eq_true, decide_eq_true_eq]
    omega
  · rw [if_neg h1, if_pos]
    simp only [Bool.or_eq_true, decide_eq_true_eq]
    omega

/-- A slab programmed with a whole image reads back as that image (R86, R87). -/
theorem readSlab_writeSlab (m : List Host.Cell) (p : Place) (image : List Byte)
    (h : image.length = Config.slabBytes) : readSlab (writeSlab m p image) p = image := by
  apply List.ext_getElem
  · simp [readSlab, readSlabRun, readRun, h]
  · intro k h1 h2
    simp only [readSlab, readSlabRun, readRun, List.length_map, List.length_range] at h1
    simp only [readSlab, readSlabRun, readRun, writeSlab, List.getElem_map, List.getElem_range]
    rw [List.take_of_length_le (le_of_eq h), readByte_writeRun, if_pos (by omega)]
    simp [List.getD_eq_getElem?_getD, List.getElem?_eq_getElem h2]

end Sys2Proof.Machine
end

