-- ==== Sys2Proof/Laws/State.lean ====
section
/-! SUPPORT. The small lemmas of the named updates: one for each field that an update leaves, and what it puts
in place. -/

namespace Sys2Proof.Machine

/-! ## The accessors -/

/-! ## withSlot -/

@[simp] theorem State.withSlot_dge (s : State) (i : Fin 64) (x : Slot) : (s.withSlot i x).dge = s.dge := rfl
@[simp] theorem State.withSlot_dix (s : State) (i : Fin 64) (x : Slot) : (s.withSlot i x).dix = s.dix := rfl
@[simp] theorem State.withSlot_plu (s : State) (i : Fin 64) (x : Slot) : (s.withSlot i x).plu = s.plu := rfl
@[simp] theorem State.withSlot_stc (s : State) (i : Fin 64) (x : Slot) : (s.withSlot i x).stc = s.stc := rfl
@[simp] theorem State.withSlot_rcu (s : State) (i : Fin 64) (x : Slot) : (s.withSlot i x).rcu = s.rcu := rfl
@[simp] theorem State.withSlot_rtn (s : State) (i : Fin 64) (x : Slot) : (s.withSlot i x).rtn = s.rtn := rfl
@[simp] theorem State.withSlot_rcl (s : State) (i : Fin 64) (x : Slot) : (s.withSlot i x).rcl = s.rcl := rfl
@[simp] theorem State.withSlot_cfg (s : State) (i : Fin 64) (x : Slot) : (s.withSlot i x).cfg = s.cfg := rfl
@[simp] theorem State.withSlot_rpu (s : State) (i : Fin 64) (x : Slot) : (s.withSlot i x).rpu = s.rpu := rfl
@[simp] theorem State.withSlot_lif (s : State) (i : Fin 64) (x : Slot) : (s.withSlot i x).lif = s.lif := rfl
@[simp] theorem State.withSlot_lines (s : State) (i : Fin 64) (x : Slot) : (s.withSlot i x).lines = s.lines := rfl
@[simp] theorem State.withSlot_store (s : State) (i : Fin 64) (x : Slot) : (s.withSlot i x).store = s.store := rfl
@[simp] theorem State.withSlot_draws (s : State) (i : Fin 64) (x : Slot) : (s.withSlot i x).draws = s.draws := rfl
@[simp] theorem State.withSlot_pending (s : State) (i : Fin 64) (x : Slot) : (s.withSlot i x).pending = s.pending := rfl

/-! ## withBank -/

@[simp] theorem State.withBank_slots (s : State) (b : Fin 4) (k : Bank) : (s.withBank b k).slots = s.slots := rfl
@[simp] theorem State.withBank_dge (s : State) (b : Fin 4) (k : Bank) : (s.withBank b k).dge = s.dge := rfl
@[simp] theorem State.withBank_dix (s : State) (b : Fin 4) (k : Bank) : (s.withBank b k).dix = s.dix := rfl
@[simp] theorem State.withBank_plu (s : State) (b : Fin 4) (k : Bank) : (s.withBank b k).plu = s.plu := rfl
@[simp] theorem State.withBank_rcu (s : State) (b : Fin 4) (k : Bank) : (s.withBank b k).rcu = s.rcu := rfl
@[simp] theorem State.withBank_rtn (s : State) (b : Fin 4) (k : Bank) : (s.withBank b k).rtn = s.rtn := rfl
@[simp] theorem State.withBank_rcl (s : State) (b : Fin 4) (k : Bank) : (s.withBank b k).rcl = s.rcl := rfl
@[simp] theorem State.withBank_cfg (s : State) (b : Fin 4) (k : Bank) : (s.withBank b k).cfg = s.cfg := rfl
@[simp] theorem State.withBank_rpu (s : State) (b : Fin 4) (k : Bank) : (s.withBank b k).rpu = s.rpu := rfl
@[simp] theorem State.withBank_lif (s : State) (b : Fin 4) (k : Bank) : (s.withBank b k).lif = s.lif := rfl
@[simp] theorem State.withBank_lines (s : State) (b : Fin 4) (k : Bank) : (s.withBank b k).lines = s.lines := rfl
@[simp] theorem State.withBank_store (s : State) (b : Fin 4) (k : Bank) : (s.withBank b k).store = s.store := rfl
@[simp] theorem State.withBank_draws (s : State) (b : Fin 4) (k : Bank) : (s.withBank b k).draws = s.draws := rfl
@[simp] theorem State.withBank_pending (s : State) (b : Fin 4) (k : Bank) : (s.withBank b k).pending = s.pending := rfl

/-! ## withEraseFlag -/

@[simp] theorem State.withEraseFlag_slots (s : State) (b : Fin 4) (f : Bool) : (s.withEraseFlag b f).slots = s.slots := rfl
@[simp] theorem State.withEraseFlag_dge (s : State) (b : Fin 4) (f : Bool) : (s.withEraseFlag b f).dge = s.dge := rfl
@[simp] theorem State.withEraseFlag_dix (s : State) (b : Fin 4) (f : Bool) : (s.withEraseFlag b f).dix = s.dix := rfl
@[simp] theorem State.withEraseFlag_plu (s : State) (b : Fin 4) (f : Bool) : (s.withEraseFlag b f).plu = s.plu := rfl
@[simp] theorem State.withEraseFlag_stc (s : State) (b : Fin 4) (f : Bool) : (s.withEraseFlag b f).stc = s.stc := rfl
@[simp] theorem State.withEraseFlag_rcu (s : State) (b : Fin 4) (f : Bool) : (s.withEraseFlag b f).rcu = s.rcu := rfl
@[simp] theorem State.withEraseFlag_rtn (s : State) (b : Fin 4) (f : Bool) : (s.withEraseFlag b f).rtn = s.rtn := rfl
@[simp] theorem State.withEraseFlag_cfg (s : State) (b : Fin 4) (f : Bool) : (s.withEraseFlag b f).cfg = s.cfg := rfl
@[simp] theorem State.withEraseFlag_rpu (s : State) (b : Fin 4) (f : Bool) : (s.withEraseFlag b f).rpu = s.rpu := rfl
@[simp] theorem State.withEraseFlag_lif (s : State) (b : Fin 4) (f : Bool) : (s.withEraseFlag b f).lif = s.lif := rfl
@[simp] theorem State.withEraseFlag_lines (s : State) (b : Fin 4) (f : Bool) : (s.withEraseFlag b f).lines = s.lines := rfl
@[simp] theorem State.withEraseFlag_store (s : State) (b : Fin 4) (f : Bool) : (s.withEraseFlag b f).store = s.store := rfl
@[simp] theorem State.withEraseFlag_draws (s : State) (b : Fin 4) (f : Bool) : (s.withEraseFlag b f).draws = s.draws := rfl
@[simp] theorem State.withEraseFlag_pending (s : State) (b : Fin 4) (f : Bool) : (s.withEraseFlag b f).pending = s.pending := rfl
@[simp] theorem State.withEraseFlag_eraseFlags (s : State) (b : Fin 4) (f : Bool) : (s.withEraseFlag b f).rcl.eraseFlags = s.rcl.eraseFlags.set b f := rfl
@[simp] theorem State.withEraseFlag_outstanding (s : State) (b : Fin 4) (f : Bool) : (s.withEraseFlag b f).rcl.outstanding = s.rcl.outstanding := rfl
@[simp] theorem State.withEraseFlag_candidates (s : State) (b : Fin 4) (f : Bool) : (s.withEraseFlag b f).rcl.candidates = s.rcl.candidates := rfl

/-! ## withRecordBuffer -/

@[simp] theorem State.withRecordBuffer_slots (s : State) (i : Fin 64) (r : RecordBuffer) : (s.withRecordBuffer i r).slots = s.slots := rfl
@[simp] theorem State.withRecordBuffer_dge (s : State) (i : Fin 64) (r : RecordBuffer) : (s.withRecordBuffer i r).dge = s.dge := rfl
@[simp] theorem State.withRecordBuffer_dix (s : State) (i : Fin 64) (r : RecordBuffer) : (s.withRecordBuffer i r).dix = s.dix := rfl
@[simp] theorem State.withRecordBuffer_plu (s : State) (i : Fin 64) (r : RecordBuffer) : (s.withRecordBuffer i r).plu = s.plu := rfl
@[simp] theorem State.withRecordBuffer_stc (s : State) (i : Fin 64) (r : RecordBuffer) : (s.withRecordBuffer i r).stc = s.stc := rfl
@[simp] theorem State.withRecordBuffer_rtn (s : State) (i : Fin 64) (r : RecordBuffer) : (s.withRecordBuffer i r).rtn = s.rtn := rfl
@[simp] theorem State.withRecordBuffer_rcl (s : State) (i : Fin 64) (r : RecordBuffer) : (s.withRecordBuffer i r).rcl = s.rcl := rfl
@[simp] theorem State.withRecordBuffer_cfg (s : State) (i : Fin 64) (r : RecordBuffer) : (s.withRecordBuffer i r).cfg = s.cfg := rfl
@[simp] theorem State.withRecordBuffer_rpu (s : State) (i : Fin 64) (r : RecordBuffer) : (s.withRecordBuffer i r).rpu = s.rpu := rfl
@[simp] theorem State.withRecordBuffer_lif (s : State) (i : Fin 64) (r : RecordBuffer) : (s.withRecordBuffer i r).lif = s.lif := rfl
@[simp] theorem State.withRecordBuffer_lines (s : State) (i : Fin 64) (r : RecordBuffer) : (s.withRecordBuffer i r).lines = s.lines := rfl
@[simp] theorem State.withRecordBuffer_store (s : State) (i : Fin 64) (r : RecordBuffer) : (s.withRecordBuffer i r).store = s.store := rfl
@[simp] theorem State.withRecordBuffer_draws (s : State) (i : Fin 64) (r : RecordBuffer) : (s.withRecordBuffer i r).draws = s.draws := rfl
@[simp] theorem State.withRecordBuffer_pending (s : State) (i : Fin 64) (r : RecordBuffer) : (s.withRecordBuffer i r).pending = s.pending := rfl

/-! ## withRecipe -/

@[simp] theorem State.withRecipe_slots (s : State) (n : Nat) (r : Recipe) : (s.withRecipe n r).slots = s.slots := rfl
@[simp] theorem State.withRecipe_dge (s : State) (n : Nat) (r : Recipe) : (s.withRecipe n r).dge = s.dge := rfl
@[simp] theorem State.withRecipe_dix (s : State) (n : Nat) (r : Recipe) : (s.withRecipe n r).dix = s.dix := rfl
@[simp] theorem State.withRecipe_plu (s : State) (n : Nat) (r : Recipe) : (s.withRecipe n r).plu = s.plu := rfl
@[simp] theorem State.withRecipe_stc (s : State) (n : Nat) (r : Recipe) : (s.withRecipe n r).stc = s.stc := rfl
@[simp] theorem State.withRecipe_rtn (s : State) (n : Nat) (r : Recipe) : (s.withRecipe n r).rtn = s.rtn := rfl
@[simp] theorem State.withRecipe_rcl (s : State) (n : Nat) (r : Recipe) : (s.withRecipe n r).rcl = s.rcl := rfl
@[simp] theorem State.withRecipe_cfg (s : State) (n : Nat) (r : Recipe) : (s.withRecipe n r).cfg = s.cfg := rfl
@[simp] theorem State.withRecipe_rpu (s : State) (n : Nat) (r : Recipe) : (s.withRecipe n r).rpu = s.rpu := rfl
@[simp] theorem State.withRecipe_lif (s : State) (n : Nat) (r : Recipe) : (s.withRecipe n r).lif = s.lif := rfl
@[simp] theorem State.withRecipe_lines (s : State) (n : Nat) (r : Recipe) : (s.withRecipe n r).lines = s.lines := rfl
@[simp] theorem State.withRecipe_store (s : State) (n : Nat) (r : Recipe) : (s.withRecipe n r).store = s.store := rfl
@[simp] theorem State.withRecipe_draws (s : State) (n : Nat) (r : Recipe) : (s.withRecipe n r).draws = s.draws := rfl
@[simp] theorem State.withRecipe_pending (s : State) (n : Nat) (r : Recipe) : (s.withRecipe n r).pending = s.pending := rfl

/-! ## onRebuild -/

@[simp] theorem State.onRebuild_slots (s : State) (f : Rebuild → Rebuild) : (s.onRebuild f).slots = s.slots := rfl
@[simp] theorem State.onRebuild_dge (s : State) (f : Rebuild → Rebuild) : (s.onRebuild f).dge = s.dge := rfl
@[simp] theorem State.onRebuild_dix (s : State) (f : Rebuild → Rebuild) : (s.onRebuild f).dix = s.dix := rfl
@[simp] theorem State.onRebuild_plu (s : State) (f : Rebuild → Rebuild) : (s.onRebuild f).plu = s.plu := rfl
@[simp] theorem State.onRebuild_stc (s : State) (f : Rebuild → Rebuild) : (s.onRebuild f).stc = s.stc := rfl
@[simp] theorem State.onRebuild_rcu (s : State) (f : Rebuild → Rebuild) : (s.onRebuild f).rcu = s.rcu := rfl
@[simp] theorem State.onRebuild_rtn (s : State) (f : Rebuild → Rebuild) : (s.onRebuild f).rtn = s.rtn := rfl
@[simp] theorem State.onRebuild_rcl (s : State) (f : Rebuild → Rebuild) : (s.onRebuild f).rcl = s.rcl := rfl
@[simp] theorem State.onRebuild_rpu (s : State) (f : Rebuild → Rebuild) : (s.onRebuild f).rpu = s.rpu := rfl
@[simp] theorem State.onRebuild_lif (s : State) (f : Rebuild → Rebuild) : (s.onRebuild f).lif = s.lif := rfl
@[simp] theorem State.onRebuild_lines (s : State) (f : Rebuild → Rebuild) : (s.onRebuild f).lines = s.lines := rfl
@[simp] theorem State.onRebuild_store (s : State) (f : Rebuild → Rebuild) : (s.onRebuild f).store = s.store := rfl
@[simp] theorem State.onRebuild_draws (s : State) (f : Rebuild → Rebuild) : (s.onRebuild f).draws = s.draws := rfl
@[simp] theorem State.onRebuild_pending (s : State) (f : Rebuild → Rebuild) : (s.onRebuild f).pending = s.pending := rfl

/-! ## onRebuildCounters -/

@[simp] theorem State.onRebuildCounters_slots (s : State) (f : RebuildCounters → RebuildCounters) : (s.onRebuildCounters f).slots = s.slots := rfl
@[simp] theorem State.onRebuildCounters_dge (s : State) (f : RebuildCounters → RebuildCounters) : (s.onRebuildCounters f).dge = s.dge := rfl
@[simp] theorem State.onRebuildCounters_dix (s : State) (f : RebuildCounters → RebuildCounters) : (s.onRebuildCounters f).dix = s.dix := rfl
@[simp] theorem State.onRebuildCounters_plu (s : State) (f : RebuildCounters → RebuildCounters) : (s.onRebuildCounters f).plu = s.plu := rfl
@[simp] theorem State.onRebuildCounters_stc (s : State) (f : RebuildCounters → RebuildCounters) : (s.onRebuildCounters f).stc = s.stc := rfl
@[simp] theorem State.onRebuildCounters_rcu (s : State) (f : RebuildCounters → RebuildCounters) : (s.onRebuildCounters f).rcu = s.rcu := rfl
@[simp] theorem State.onRebuildCounters_rtn (s : State) (f : RebuildCounters → RebuildCounters) : (s.onRebuildCounters f).rtn = s.rtn := rfl
@[simp] theorem State.onRebuildCounters_rcl (s : State) (f : RebuildCounters → RebuildCounters) : (s.onRebuildCounters f).rcl = s.rcl := rfl
@[simp] theorem State.onRebuildCounters_rpu (s : State) (f : RebuildCounters → RebuildCounters) : (s.onRebuildCounters f).rpu = s.rpu := rfl
@[simp] theorem State.onRebuildCounters_lif (s : State) (f : RebuildCounters → RebuildCounters) : (s.onRebuildCounters f).lif = s.lif := rfl
@[simp] theorem State.onRebuildCounters_lines (s : State) (f : RebuildCounters → RebuildCounters) : (s.onRebuildCounters f).lines = s.lines := rfl
@[simp] theorem State.onRebuildCounters_store (s : State) (f : RebuildCounters → RebuildCounters) : (s.onRebuildCounters f).store = s.store := rfl
@[simp] theorem State.onRebuildCounters_draws (s : State) (f : RebuildCounters → RebuildCounters) : (s.onRebuildCounters f).draws = s.draws := rfl
@[simp] theorem State.onRebuildCounters_pending (s : State) (f : RebuildCounters → RebuildCounters) : (s.onRebuildCounters f).pending = s.pending := rfl

@[simp] theorem State.slot_withSlot_self (s : State) (i : Fin 64) (x : Slot) : (s.withSlot i x).slot i = x := by
  simp [State.slot, State.withSlot]

theorem State.slot_withSlot_other (s : State) (i j : Fin 64) (x : Slot) (h : j ≠ i) :
    (s.withSlot i x).slot j = s.slot j := by
  have : i.val ≠ j.val := fun e => h (Fin.ext e.symm)
  simp [State.slot, State.withSlot, this]

@[simp] theorem State.bank_withBank_self (s : State) (b : Fin 4) (k : Bank) : (s.withBank b k).bank b = k := by
  simp [State.bank, State.withBank]

theorem State.bank_withBank_other (s : State) (b c : Fin 4) (k : Bank) (h : c ≠ b) :
    (s.withBank b k).bank c = s.bank c := by
  have : b.val ≠ c.val := fun e => h (Fin.ext e.symm)
  simp [State.bank, State.withBank, this]

@[simp] theorem State.recordBuffer_withRecordBuffer_self (s : State) (i : Fin 64) (r : RecordBuffer) :
    (s.withRecordBuffer i r).recordBuffer i = r := by
  simp [State.recordBuffer, State.withRecordBuffer]

theorem State.recordBuffer_withRecordBuffer_other (s : State) (i j : Fin 64) (r : RecordBuffer) (h : j ≠ i) :
    (s.withRecordBuffer i r).recordBuffer j = s.recordBuffer j := by
  have : i.val ≠ j.val := fun e => h (Fin.ext e.symm)
  simp [State.recordBuffer, State.withRecordBuffer, this]

@[simp] theorem State.withSlot_withSlot (s : State) (i : Fin 64) (x y : Slot) :
    (s.withSlot i x).withSlot i y = s.withSlot i y := by
  simp [State.withSlot]

@[simp] theorem State.withBank_withBank (s : State) (b : Fin 4) (k l : Bank) :
    (s.withBank b k).withBank b l = s.withBank b l := by
  simp [State.withBank]

@[simp] theorem State.withRecipe_catalog (s : State) (n : Nat) (r : Recipe) :
    (s.withRecipe n r).rcu.catalog = assocSet s.rcu.catalog n r := rfl

@[simp] theorem State.withRecipe_buffers (s : State) (n : Nat) (r : Recipe) :
    (s.withRecipe n r).rcu.buffers = s.rcu.buffers := rfl

@[simp] theorem State.withRecipe_releaseQueue (s : State) (n : Nat) (r : Recipe) :
    (s.withRecipe n r).rcu.releaseQueue = s.rcu.releaseQueue := rfl

@[simp] theorem State.withRecipe_walk (s : State) (n : Nat) (r : Recipe) :
    (s.withRecipe n r).rcu.walk = s.rcu.walk := rfl

@[simp] theorem State.withRecipe_nextRecipe (s : State) (n : Nat) (r : Recipe) :
    (s.withRecipe n r).rcu.nextRecipe = s.rcu.nextRecipe := rfl

@[simp] theorem State.withRecordBuffer_catalog (s : State) (i : Fin 64) (r : RecordBuffer) :
    (s.withRecordBuffer i r).rcu.catalog = s.rcu.catalog := rfl

@[simp] theorem State.withBank_lastFault (s : State) (b : Fin 4) (k : Bank) :
    (s.withBank b k).stc.lastFault = s.stc.lastFault := rfl

@[simp] theorem State.onRebuild_mode (s : State) (f : Rebuild → Rebuild) : (s.onRebuild f).cfg.mode = s.cfg.mode := rfl

@[simp] theorem State.onRebuild_inForce (s : State) (f : Rebuild → Rebuild) :
    (s.onRebuild f).cfg.inForce = s.cfg.inForce := rfl

@[simp] theorem State.onRebuildCounters_rebuild (s : State) (f : RebuildCounters → RebuildCounters) :
    (s.onRebuildCounters f).cfg.rebuild = s.cfg.rebuild := rfl

/-! ## The end of an action -/

@[simp] theorem endAction_slots (s : State) : (endAction s).slots = s.slots := rfl
@[simp] theorem endAction_dge (s : State) : (endAction s).dge = s.dge := rfl
@[simp] theorem endAction_dix (s : State) : (endAction s).dix = s.dix := rfl
@[simp] theorem endAction_plu (s : State) : (endAction s).plu = s.plu := rfl
@[simp] theorem endAction_stc (s : State) : (endAction s).stc = s.stc := rfl
@[simp] theorem endAction_rcu (s : State) : (endAction s).rcu = s.rcu := rfl
@[simp] theorem endAction_rtn (s : State) : (endAction s).rtn = s.rtn := rfl
@[simp] theorem endAction_rcl (s : State) : (endAction s).rcl = s.rcl := rfl
@[simp] theorem endAction_cfg (s : State) : (endAction s).cfg = s.cfg := rfl
@[simp] theorem endAction_rpu (s : State) : (endAction s).rpu = s.rpu := rfl
@[simp] theorem endAction_lines (s : State) : (endAction s).lines = s.lines := rfl
@[simp] theorem endAction_store (s : State) : (endAction s).store = s.store := rfl
@[simp] theorem endAction_draws (s : State) : (endAction s).draws = s.draws := rfl
@[simp] theorem endAction_pending (s : State) : (endAction s).pending = s.pending := rfl

@[simp] theorem endAction_tx (s : State) :
    (endAction s).lif.tx = s.lif.tx.map (sealFrame s.rpu.notices.length) := rfl

@[simp] theorem endAction_reads (s : State) : (endAction s).lif.reads = s.lif.reads := rfl

@[simp] theorem endAction_held (s : State) : (endAction s).lif.held = s.lif.held := rfl

/-- An action that is taken always answers a next state. -/
theorem act_eq_next {s t : State} : act s = .next t ↔ t = endAction s := by
  constructor
  · intro h
    injection h with h
    exact h.symm
  · rintro rfl
    rfl

/-! ## A raise -/

/-- All that a raise can do: nothing, or its pair joins the set and the first pair brings an attention frame. -/
theorem raise_cases (n : Notice) (s : State) :
    raise n s = s ∨
      (kindEnabled s.rpu.mask n.kind = true ∧ n ∉ s.rpu.notices ∧
        raise n s = { s with
          rpu.notices := insertNotice n s.rpu.notices
          lif.tx := if s.rpu.notices.isEmpty then s.lif.tx ++ [.attention none] else s.lif.tx }) := by
  unfold raise
  split
  · rename_i h
    simp only [Bool.and_eq_true, Bool.not_eq_true', List.contains_eq_mem, decide_eq_false_iff_not] at h
    exact Or.inr ⟨h.1, h.2, rfl⟩
  · exact Or.inl rfl

theorem mem_insertNotice (n m : Notice) (l : List Notice) : m ∈ insertNotice n l ↔ m = n ∨ m ∈ l := by
  induction l with
  | nil => simp [insertNotice]
  | cons x rest ih =>
    simp only [insertNotice]
    split
    · simp
    · simp only [List.mem_cons, ih]
      tauto

/-- A notice of an enabled kind is pending after its raise. -/
theorem mem_raise (n : Notice) (s : State) (h : kindEnabled s.rpu.mask n.kind = true) :
    n ∈ (raise n s).rpu.notices := by
  unfold raise
  split
  · simp [mem_insertNotice]
  · rename_i hc
    simpa [h] using hc

/-- A raise removes no notice. -/
theorem mem_raise_of_mem (n m : Notice) (s : State) (h : m ∈ s.rpu.notices) : m ∈ (raise n s).rpu.notices := by
  rcases raise_cases n s with e | ⟨-, -, e⟩ <;> rw [e]
  · exact h
  · simp [mem_insertNotice, h]

@[simp] theorem raise_slots (n : Notice) (s : State) : (raise n s).slots = s.slots := by
  rcases raise_cases n s with e | ⟨-, -, e⟩ <;> rw [e]
@[simp] theorem raise_dge (n : Notice) (s : State) : (raise n s).dge = s.dge := by
  rcases raise_cases n s with e | ⟨-, -, e⟩ <;> rw [e]
@[simp] theorem raise_dix (n : Notice) (s : State) : (raise n s).dix = s.dix := by
  rcases raise_cases n s with e | ⟨-, -, e⟩ <;> rw [e]
@[simp] theorem raise_plu (n : Notice) (s : State) : (raise n s).plu = s.plu := by
  rcases raise_cases n s with e | ⟨-, -, e⟩ <;> rw [e]
@[simp] theorem raise_stc (n : Notice) (s : State) : (raise n s).stc = s.stc := by
  rcases raise_cases n s with e | ⟨-, -, e⟩ <;> rw [e]
@[simp] theorem raise_rcu (n : Notice) (s : State) : (raise n s).rcu = s.rcu := by
  rcases raise_cases n s with e | ⟨-, -, e⟩ <;> rw [e]
@[simp] theorem raise_rtn (n : Notice) (s : State) : (raise n s).rtn = s.rtn := by
  rcases raise_cases n s with e | ⟨-, -, e⟩ <;> rw [e]
@[simp] theorem raise_rcl (n : Notice) (s : State) : (raise n s).rcl = s.rcl := by
  rcases raise_cases n s with e | ⟨-, -, e⟩ <;> rw [e]
@[simp] theorem raise_cfg (n : Notice) (s : State) : (raise n s).cfg = s.cfg := by
  rcases raise_cases n s with e | ⟨-, -, e⟩ <;> rw [e]
@[simp] theorem raise_lines (n : Notice) (s : State) : (raise n s).lines = s.lines := by
  rcases raise_cases n s with e | ⟨-, -, e⟩ <;> rw [e]
@[simp] theorem raise_store (n : Notice) (s : State) : (raise n s).store = s.store := by
  rcases raise_cases n s with e | ⟨-, -, e⟩ <;> rw [e]
@[simp] theorem raise_draws (n : Notice) (s : State) : (raise n s).draws = s.draws := by
  rcases raise_cases n s with e | ⟨-, -, e⟩ <;> rw [e]
@[simp] theorem raise_pending (n : Notice) (s : State) : (raise n s).pending = s.pending := by
  rcases raise_cases n s with e | ⟨-, -, e⟩ <;> rw [e]

@[simp] theorem raise_mask (n : Notice) (s : State) : (raise n s).rpu.mask = s.rpu.mask := by
  rcases raise_cases n s with e | ⟨-, -, e⟩ <;> rw [e]

@[simp] theorem raise_reads (n : Notice) (s : State) : (raise n s).lif.reads = s.lif.reads := by
  rcases raise_cases n s with e | ⟨-, -, e⟩ <;> rw [e]

/-! ## A recorded failure -/

@[simp] theorem recordFault_slots (b : Fin 4) (k : FaultKind) (s : State) : (recordFault b k s).slots = s.slots := rfl
@[simp] theorem recordFault_dge (b : Fin 4) (k : FaultKind) (s : State) : (recordFault b k s).dge = s.dge := rfl
@[simp] theorem recordFault_dix (b : Fin 4) (k : FaultKind) (s : State) : (recordFault b k s).dix = s.dix := rfl
@[simp] theorem recordFault_plu (b : Fin 4) (k : FaultKind) (s : State) : (recordFault b k s).plu = s.plu := rfl
@[simp] theorem recordFault_rcu (b : Fin 4) (k : FaultKind) (s : State) : (recordFault b k s).rcu = s.rcu := rfl
@[simp] theorem recordFault_rtn (b : Fin 4) (k : FaultKind) (s : State) : (recordFault b k s).rtn = s.rtn := rfl
@[simp] theorem recordFault_rcl (b : Fin 4) (k : FaultKind) (s : State) : (recordFault b k s).rcl = s.rcl := rfl
@[simp] theorem recordFault_cfg (b : Fin 4) (k : FaultKind) (s : State) : (recordFault b k s).cfg = s.cfg := rfl
@[simp] theorem recordFault_rpu (b : Fin 4) (k : FaultKind) (s : State) : (recordFault b k s).rpu = s.rpu := rfl
@[simp] theorem recordFault_lif (b : Fin 4) (k : FaultKind) (s : State) : (recordFault b k s).lif = s.lif := rfl
@[simp] theorem recordFault_lines (b : Fin 4) (k : FaultKind) (s : State) : (recordFault b k s).lines = s.lines := rfl
@[simp] theorem recordFault_store (b : Fin 4) (k : FaultKind) (s : State) : (recordFault b k s).store = s.store := rfl
@[simp] theorem recordFault_draws (b : Fin 4) (k : FaultKind) (s : State) : (recordFault b k s).draws = s.draws := rfl
@[simp] theorem recordFault_pending (b : Fin 4) (k : FaultKind) (s : State) : (recordFault b k s).pending = s.pending := rfl

@[simp] theorem recordFault_lastFault (b : Fin 4) (k : FaultKind) (s : State) :
    (recordFault b k s).stc.lastFault = some (b, k) := rfl

@[simp] theorem bank_recordFault_self (b : Fin 4) (k : FaultKind) (s : State) :
    (recordFault b k s).bank b =
      { s.bank b with flags := setFlag k (s.bank b).flags, faults := countFault k (s.bank b).faults } := by
  simp [State.bank, recordFault]

theorem bank_recordFault_other (b c : Fin 4) (k : FaultKind) (s : State) (h : c ≠ b) :
    (recordFault b k s).bank c = s.bank c := by
  have : b.val ≠ c.val := fun e => h (Fin.ext e.symm)
  simp [State.bank, recordFault, this]

end Sys2Proof.Machine
end

