-- ==== Sys2Proof/Laws/Operations.lean ====
section
/-! SUPPORT. What each shared operation can do, said once: the fields that it may change, and what a reference,
a refused advance or a taken request comes to. -/

namespace Sys2Proof.Machine

/-! ## Banks -/

/-- A state that differs in the banks and in the fill buffers only. -/
def SameButBanks (s t : State) : Prop :=
  ∃ banks buffers, t = { s with stc := { s.stc with banks := banks }, plu := { s.plu with buffers := buffers } }

theorem SameButBanks.refl (s : State) : SameButBanks s s := ⟨s.stc.banks, s.plu.buffers, rfl⟩

theorem SameButBanks.trans {s t u : State} (h : SameButBanks s t) (k : SameButBanks t u) : SameButBanks s u := by
  obtain ⟨a, b, rfl⟩ := h
  obtain ⟨c, d, rfl⟩ := k
  exact ⟨c, d, rfl⟩

theorem SameButBanks.withBank (s : State) (b : Fin 4) (k : Bank) : SameButBanks s (s.withBank b k) :=
  ⟨s.stc.banks.set b k, s.plu.buffers, rfl⟩

/-- The start of a program changes the banks and the buffers only (R65, R86). -/
theorem startProgram_frame (b : Fin 4) (q : Nat) (s : State) : SameButBanks s (startProgram b q s) := by
  unfold startProgram
  split
  · exact .refl s
  · exact ⟨_, _, rfl⟩

/-- A bank's choice changes the banks and the buffers only (R90, R92). -/
theorem chooseNext_frame (b : Fin 4) (s : State) : SameButBanks s (chooseNext b s) := by
  unfold chooseNext
  simp only
  split
  · exact .withBank s b _
  · split
    · exact (SameButBanks.withBank s b _).trans (startProgram_frame b _ _)
    · split
      · exact .refl s
      · exact .withBank s b _

/-- An arrival changes the banks and the buffers only (R90, R91). -/
theorem bankArrival_frame (b : Fin 4) (join : Bank → Bank) (s : State) : SameButBanks s (bankArrival b join s) := by
  unfold bankArrival
  simp only
  split
  · split
    · split
      · exact (SameButBanks.withBank s b _).trans (chooseNext_frame b _)
      · exact .withBank s b _
    · split
      · exact .withBank s b _
      · exact (SameButBanks.withBank s b _).trans (chooseNext_frame b _)
  · split
    · exact .withBank s b _
    · exact (SameButBanks.withBank s b _).trans (chooseNext_frame b _)

/-- A read's arrival changes the banks and the buffers only. -/
theorem queueRead_frame (j : ReadJob) (s : State) : SameButBanks s (queueRead j s) := bankArrival_frame _ _ s

/-- A program's arrival changes the banks and the buffers only. -/
theorem queueProgram_frame (q : Nat) (s : State) : SameButBanks s (queueProgram q s) := by
  unfold queueProgram
  split
  · exact .refl s
  · exact bankArrival_frame _ _ s

/-- The end of a completion at its bank changes the banks and the buffers only (R89). -/
theorem finishBank_frame (b : Fin 4) (s : State) : SameButBanks s (finishBank b s) :=
  (SameButBanks.withBank s b _).trans (chooseNext_frame b _)

/-- A slab read changes the banks and the buffers only, and answers bytes copied from a buffer only for a
sequence that a buffer holds (R82). -/
theorem slabRead_frame (who : Requester) (seq off len : Nat) (s : State) :
    SameButBanks s (slabRead who seq off len s).2 ∧
      ∀ bytes, (slabRead who seq off len s).1 = .copied bytes →
        ∃ b, s.plu.bufferOf seq = some b ∧ bytes = ((bufferImage b).drop off).take len := by
  unfold slabRead
  split
  · split
    · rename_i b hb
      exact ⟨.refl s, fun bytes h => ⟨b, hb, by injection h with h; exact h.symm⟩⟩
    · split
      · exact ⟨queueRead_frame _ s, fun bytes h => by cases h⟩
      · exact ⟨.refl s, fun bytes h => by cases h⟩
  · exact ⟨.refl s, fun bytes h => by cases h⟩

/-! ## Passes and judgements -/

/-- A state that differs in the Reclaim Engine only. -/
def SameButReclaim (s t : State) : Prop := ∃ r, t = { s with rcl := r }

theorem SameButReclaim.refl (s : State) : SameButReclaim s s := ⟨s.rcl, rfl⟩

theorem SameButReclaim.trans {s t u : State} (h : SameButReclaim s t) (k : SameButReclaim t u) : SameButReclaim s u := by
  obtain ⟨a, rfl⟩ := h
  obtain ⟨c, rfl⟩ := k
  exact ⟨c, rfl⟩

/-- A pass changes the Reclaim Engine only (R148). -/
theorem reclaimPass_frame (s : State) : SameButReclaim s (reclaimPass s) := by
  unfold reclaimPass
  split
  · exact ⟨_, rfl⟩
  · exact .refl s

/-- A judgement that lists a candidate changes the Reclaim Engine only (R144, R145). -/
theorem offerCandidate_frame (g : Nat) (s : State) : SameButReclaim s (offerCandidate g s).2 := by
  unfold offerCandidate
  split
  · exact ⟨_, rfl⟩
  · exact .refl s

/-- A judgement changes the Reclaim Engine only (R144). -/
theorem judgeSegment_frame (g : Nat) (s : State) : SameButReclaim s (judgeSegment g s) := by
  unfold judgeSegment
  simp only
  split
  · exact (offerCandidate_frame g s).trans (reclaimPass_frame _)
  · exact offerCandidate_frame g s

/-- A condemn's result changes the Reclaim Engine only (R150). -/
theorem condemnResult_frame (b : Fin 4) (c : Condemn) (made : Bool) (s : State) :
    SameButReclaim s (condemnResult b c made s) := by
  unfold condemnResult
  exact SameButReclaim.trans ⟨_, rfl⟩ (reclaimPass_frame _)

/-- The refusal of the condemns outstanding changes the Reclaim Engine only (R149, R150, R153). -/
theorem refuseOutstanding_frame (s : State) : SameButReclaim s (refuseOutstanding s) := by
  unfold refuseOutstanding
  generalize List.finRange 4 = bs
  induction bs generalizing s with
  | nil => exact .refl s
  | cons b rest ih =>
    rw [List.foldl_cons]
    refine SameButReclaim.trans ?_ (ih _)
    split
    · exact condemnResult_frame _ _ _ s
    · exact .refl s

/-- The entry into OPERATING changes the Reclaim Engine only (R153). -/
theorem reclaimOnEntry_frame (s : State) : SameButReclaim s (reclaimOnEntry s) := by
  have listed (gs : List Nat) (t : State) : SameButReclaim t (gs.foldl (fun u g => (offerCandidate g u).2) t) := by
    induction gs generalizing t with
    | nil => exact .refl t
    | cons g rest ih => exact (offerCandidate_frame g t).trans (ih _)
  unfold reclaimOnEntry
  exact (SameButReclaim.trans ⟨_, rfl⟩ (listed _ _)).trans (reclaimPass_frame _)

/-! ## References -/

/-- A reference added to one sequence (R71): its own count rises, no other entry and no place changes. -/
theorem assocGet_addReference (p : Plu) (q k : Nat) :
    assocGet (p.addReference q).map k =
      if k = q then (assocGet p.map q).map (fun e => { e with count := countUp e.count }) else assocGet p.map k := by
  unfold Plu.addReference
  split
  · rename_i h
    split
    · rename_i hk
      simp [hk, h]
    · rfl
  · rename_i e h
    split
    · rename_i hk
      simp [hk, h]
    · rename_i hk
      exact assocGet_assocSet_other _ _ _ _ hk

/-- A give-back (R72): the sequence's own count falls where the map holds it, and nothing else changes but the
map and the Reclaim Engine. -/
theorem giveBack_frame (q : Nat) (s : State) :
    ∃ r, giveBack q s = { s with
      rcl := r
      plu := { s.plu with map := match assocGet s.plu.map q with
        | some e => assocSet s.plu.map q { e with count := countDown e.count }
        | none => s.plu.map } } := by
  unfold giveBack
  split
  · rename_i h
    exact ⟨s.rcl, by simp [h]⟩
  · rename_i e h
    simp only [h]
    split
    · split
      · rename_i p hp
        obtain ⟨r, hr⟩ := judgeSegment_frame p.segment
          { s with plu.map := assocSet s.plu.map q { e with count := countDown e.count } }
        exact ⟨r, hr⟩
      · exact ⟨s.rcl, rfl⟩
    · exact ⟨s.rcl, rfl⟩

/-- A count never passes 2^32 - 1 (R70, R72). -/
theorem countUp_le {n : Nat} (h : n ≤ Config.countMax) : countUp n ≤ Config.countMax := by
  unfold countUp
  split <;> omega

theorem countDown_le (n : Nat) : countDown n ≤ n := by
  unfold countDown
  split <;> omega

/-- A reference taken and given back leaves the count, unless it has been pinned (R71, R72). -/
theorem countDown_countUp {n : Nat} (h : n + 1 < Config.countMax) : countDown (countUp n) = n := by
  have h1 : n < Config.countMax := by omega
  simp [countUp, countDown, h1, h]

/-! ## Advances and placements -/

/-- A refused advance changes nothing but the STORE_FULL that it may raise (R68, R75). -/
theorem tryAdvance_refused {s t : State} (h : tryAdvance s = (false, t)) :
    t = s ∨ t = raise (deviceNotice .storeFull) s := by
  unfold tryAdvance at h
  split at h
  · split at h
    · split at h
      · cases h
      · injection h with _ h
        exact Or.inl h.symm
    · injection h with _ h
      exact Or.inr h.symm
  · injection h with _ h
    exact Or.inr h.symm

/-! ## Requests -/

/-- A frame that LIF takes (R180, R183). -/
theorem deliver_taken {s : State} (i : Instr) (n : Nat) (taken : State → State)
    (h : s.inReset = false ∧ linkReady s = true) (hn : n ≤ Config.payloadMax) : deliver i n taken s = taken s := by
  have hn' : ¬ Config.payloadMax < n := by omega
  simp only [deliver, h.1, h.2, hn', if_true, if_false, Bool.false_eq_true]

/-- A well-formed request that LIF takes is answered by its owner (R181, R182). -/
theorem request_taken {s : State} (kind : Byte) (i : Instr) (f : Frame) (take : State → State × Reply)
    (h : s.inReset = false ∧ linkReady s = true) (hn : f.payload.length ≤ Config.payloadMax)
    (hw : wellFormedRequest kind f = true) :
    request kind i f take s = act (sendReply kind f.tag (take s).2 (take s).1) := by
  simp only [request, deliver_taken i _ _ h hn, hw, if_true]

/-- A Read Recipe or Read Chunk that LIF takes (R182, R185). -/
theorem restoreRequest_taken {s : State} (kind : Byte) (i : Instr) (f : Frame) (take : State → State × Option Reply)
    (h : s.inReset = false ∧ linkReady s = true) (hn : f.payload.length ≤ Config.payloadMax)
    (hw : wellFormedRequest kind f = true) :
    restoreRequest kind i f take s = act (match (take s).2 with
      | some r => sendRestoreReply kind f.tag r (take s).1
      | none => (take s).1) := by
  cases hr : (take s).2 <;> simp [restoreRequest, deliver_taken i _ _ h hn, hw, hr]

/-- Held in reset, LIF takes no frame (R189). -/
theorem deliver_inReset {s : State} (i : Instr) (n : Nat) (taken : State → State) (h : s.inReset = true) :
    deliver i n taken s = s := by
  simp [deliver, h]

/-! ## Numbers as bytes -/

@[simp] theorem beBytes_length (n v : Nat) : (beBytes n v).length = n := by
  induction n with
  | zero => rfl
  | succ n ih => simp [beBytes, ih]

theorem foldl_bytes (bs : List Byte) (a : Nat) :
    bs.foldl (fun a b => a * 256 + b.toNat) a = a * 256 ^ bs.length + ofBytes bs := by
  induction bs generalizing a with
  | nil => simp [ofBytes]
  | cons b rest ih =>
    simp only [ofBytes, List.foldl_cons, List.length_cons]
    rw [ih, ih (0 * 256 + b.toNat)]
    ring

/-- The number that the bytes of a number hold, in `n` bytes. -/
theorem ofBytes_beBytes (n v : Nat) : ofBytes (beBytes n v) = v % 256 ^ n := by
  induction n with
  | zero => simp [beBytes, ofBytes, Nat.mod_one]
  | succ n ih =>
    have h : ofBytes (beBytes (n + 1) v) = (v / 256 ^ n % 256) * 256 ^ n + v % 256 ^ n := by
      have := foldl_bytes (beBytes n v) (0 * 256 + (BitVec.ofNat 8 (v / 256 ^ n)).toNat)
      rw [← ih]
      simp only [beBytes, ofBytes, List.foldl_cons] at this ⊢
      rw [this, beBytes_length]
      simp
    rw [h, Nat.pow_succ, Nat.mod_mul, Nat.mul_comm, Nat.add_comm]

/-- A field of `n` bytes that begins a layout. -/
theorem field_beBytes (n v : Nat) (rest : List Byte) : field (beBytes n v ++ rest) 0 n = v % 256 ^ n := by
  have h : (beBytes n v ++ rest).take n = beBytes n v := by
    rw [List.take_append_of_le_length (by simp)]
    exact List.take_of_length_le (by simp)
  simp [field, h, ofBytes_beBytes]

/-- A field behind a prefix. -/
theorem field_append (pre rest : List Byte) (off n : Nat) (h : pre.length ≤ off) :
    field (pre ++ rest) off n = field rest (off - pre.length) n := by
  simp [field, List.drop_append, List.drop_eq_nil_of_le h]

end Sys2Proof.Machine
end

