-- ==== Sys2Proof/Tests/Slice0.lean ====
section
/-! SUPPORT. Tests: ill-formed commands, the manual's worked values, and for each statement with hypotheses a
state and operands that meet them. -/

namespace Sys2Proof.Tests

open Sys2Proof Sys2Proof.Machine

/-! ## Small states -/

/-- A new part put straight into OPERATING. -/
def operating : State := { State.reset with cfg.mode := .operating }

/-- OPERATING with one slot filled. -/
def withStream (x : Slot) : State := operating.withSlot 0 x

/-- A stream that has taken `data` and whose chunker has taken `len` bytes of it. -/
def scanning (st : SlotState) (data : List Byte) (len : Nat) : Slot :=
  { freeSlot with
    state := st, phase := some .scanning, recipe := 64, profile := ⟨64, 128, 256, 16, 4⟩
    intake := data, accepted := data.length, chunker := ⟨[], 0, 0, 0, len⟩ }

/-- A digest whose first three bytes are 3Ah, C5h and 7Eh (R40's example). -/
def sampleDigest : Digest := BitVec.ofNat 256 (0x3AC57E * 2 ^ 232)

/-- A slot with a digested chunk of one byte in hand. -/
def inHand (st : SlotState) : Slot :=
  { scanning st [1#8, 2#8] 0 with hand := some ⟨1, some sampleDigest⟩, phase := some .lookup }

/-- A catalog entry in a state. -/
def entry (st : RecipeState) : Recipe :=
  { openedRecipe freeSlot with state := st, recordCount := 1, blockCount := 1, blocks := [⟨16, 0⟩] }

/-- A buffer that holds sequence 16. -/
def buffer (st : BufferState) : FillBuffer := ⟨st, 16, [1#8], [⟨.chunk sampleDigest, 0, 1⟩], none⟩

/-- The Placement Unit with segment 0 OPEN, one of its slabs given out and filled or on its way. -/
def oneSlab (st : BufferState) : Plu :=
  ⟨#v[some (buffer st), none], some 17, [(16, ⟨some ⟨0, 0⟩, 1⟩)], [(0, .opened 1), (1, .free)], [], none⟩

/-- The Placement Unit with slab 16 programmed in segment 0. -/
def stored (st : SegState) (count : Nat) : Plu :=
  ⟨#v[none, none], some 17, [(16, ⟨some ⟨0, 0⟩, count⟩)], [(0, st), (1, .free)], [], none⟩

/-- A part whose bank 0 runs an operation. -/
def running (op : BankOp) (s : State) : State := s.withBank 0 { idleBank with running := some op }

/-! ## Ill-formed commands -/

theorem test_wellFormed_payload :
    (Instr.identify ⟨0#16, 0#8, List.replicate 8256 0#8⟩).wellFormed = true ∧
    (Instr.identify ⟨0#16, 0#8, List.replicate 8257 0#8⟩).wellFormed = false := by
  simp only [Instr.wellFormed, Frame.fits, List.length_replicate]
  decide

theorem test_wellFormed_badFrame :
    (Instr.badFrame [0x01#8]).wellFormed = true ∧
    (Instr.badFrame [0x01#8, 0#8, 0#8, 7#8, 0#8, 0#8, 0x7F#8, 0xD1#8, 0x64#8, 0x83#8]).wellFormed = false ∧
    (Instr.badFrame [0x01#8, 0#8, 0#8, 7#8, 0#8, 0#8, 0x7F#8, 0xD1#8, 0x64#8, 0x82#8]).wellFormed = true := by decide +kernel

theorem test_wellFormed_unknownKind :
    (Instr.unknownRequestKind 0x1E#8 ⟨0#16, 0#8, []⟩).wellFormed = true ∧
    (Instr.unknownRequestKind 0x1D#8 ⟨0#16, 0#8, []⟩).wellFormed = false := by decide

/-! ## Worked values of the manual -/

/-- R61: over the nine ASCII digits 1 to 9 the check is CBF43926h. -/
theorem test_crc32 :
    crc32 [0x31#8, 0x32#8, 0x33#8, 0x34#8, 0x35#8, 0x36#8, 0x37#8, 0x38#8, 0x39#8] = 0xCBF43926#32 := by decide +kernel

/-- R28's table of substituted values. -/
theorem test_substitute :
    [0x00#8, 0x01#8, 0x02#8, 0x20#8, 0x41#8, 0x7F#8, 0xFF#8].map substitute = [173, 89, 5, 55, 110, 42, 84] := by
  decide

/-- R40's example selects bucket 240,727. -/
theorem test_bucketOf : bucketOf sampleDigest = 240727 := by decide

/-- 2.8, chunk 1: the sums at positions 100 to 104, and the boundary after 104. -/
theorem test_chunk_one :
    let c100 : Chunker := ⟨List.replicate 48 0#8, 8304, 203448, 100, 100⟩
    let c103 := ((c100.take 1#8).take 1#8).take 1#8
    let c104 := c103.take 1#8
    (c103.a, c103.b, c104.a, c104.b) = (8052, 191604, 7968, 187824) ∧
    boundaryAfter ⟨64, 128, 256, 16, 4⟩ 103 c103.b = false ∧
    boundaryAfter ⟨64, 128, 256, 16, 4⟩ 104 c104.b = true := by decide

/-- 2.8, chunk 2: no boundary at 127, one at 128, where the band becomes D2. -/
theorem test_bands :
    boundaryAfter ⟨64, 128, 256, 16, 4⟩ 127 104664 = false ∧
    boundaryAfter ⟨64, 128, 256, 16, 4⟩ 128 104664 = true ∧
    boundaryAfter ⟨64, 128, 256, 16, 4⟩ 63 16 = false ∧
    boundaryAfter ⟨64, 128, 256, 16, 4⟩ 256 1 = true := by decide

/-- 4.3: beside 30 objects in 250,000 bytes a chunk of 9,000 bytes fits and one of 10,100 does not. -/
theorem test_fits :
    let b : FillBuffer := ⟨.filling, 2310, List.replicate 250000 0#8, List.replicate 30 ⟨.recipeHead 1, 0, 1⟩, none⟩
    fits b 9000 = true ∧ fits b 10100 = false := by
  simp only [fits, List.length_replicate]
  decide

/-- 1.10: after slot 9 the arbiter takes slot 40 before slot 3; after 40 it wraps to 3. -/
theorem test_arbiter :
    (arbiterOrder 9).find? (fun i => i = 3 ∨ i = 40) = some 40 ∧
    (arbiterOrder 40).find? (fun i => i = 3 ∨ i = 9) = some 3 := by decide

/-- 5's worked example: an erase suspended 14 times is suspended once more, one suspended 15 times is not. -/
theorem test_suspend :
    let s (n : Nat) := operating.withBank 2 ⟨some (.erase 306), [], [], some ⟨306, .running, n⟩, ⟨false, false, false⟩, ⟨0, 0, 0⟩⟩
    let j : ReadJob := ⟨.walk, ⟨306, 0⟩, 0, 1⟩
    ((queueRead j (s 14)).bank 2).held = some ⟨306, .suspended, 15⟩ ∧
    ((queueRead j (s 15)).bank 2).readQueue = [j] := by decide

/-- 12's example: publication takes 20,000 / 10,000 / 64 to 20,000 / 20,000 / 20,000, and D1 50,000 to 32,768. -/
theorem test_publication :
    normalise ⟨20000, 10000, 64, 32768, 8192⟩ = ⟨20000, 20000, 20000, 32768, 8192⟩ ∧
    clampSetting 4096 8 50000 = 32768 ∧ clampSetting 4096 7 3 = 64 := by decide

/-- 7.7: protection at day 630 of the first three entries of the example. -/
theorem test_protection :
    let m : RetentionMemory := ⟨630, false, [(18, 590), (77, 620)]⟩
    (isProtected m 18 600, isProtected m 77 633, isProtected m 5 631) = (true, true, false) := by decide

/-- 11.1, R181: an Identify with tag 0007h, written out byte by byte. -/
theorem test_decode_identify :
    decodeFrame [0x01#8, 0#8, 0#8, 7#8, 0#8, 0#8, 0x7F#8, 0xD1#8, 0x64#8, 0x83#8] = .identify ⟨7#16, 0#8, []⟩ := by
  decide +kernel

/-- R61: the trailer entry of a recipe block. -/
theorem test_trailerEntry :
    (trailerEntryBytes ⟨.recipeBlock 0x01020304 5, 256, 64⟩).take 18 =
      [2#8, 0#8, 0#8, 0#8, 0#8, 0#8, 1#8, 0#8, 0#8, 0#8, 0#8, 64#8, 1#8, 2#8, 3#8, 4#8, 0#8, 5#8] := by decide

/-- R156: the 34th slab read at bank 2 is slab 1 of segment 6; bank 0 has one segment more of 4,097. -/
theorem test_scanPlace : scanPlace 2 33 = ⟨6, 1⟩ ∧ scanTotal 3 4097 = 32768 ∧ scanTotal 0 4097 = 32800 := by decide

/-! ## Every statement's hypotheses can be met -/

theorem operating_listens : Listening operating := ⟨rfl, rfl⟩

theorem witness_StepRunsFrontCommand :
    { State.reset with pending := [.powerOn] }.pending = Instr.powerOn :: [] := rfl

/-- One state for each clause: nothing held, LIF waiting, a held frame that LIF now accepts. -/
theorem witness_EmptyQueueDeliversHeldFrame :
    (State.reset.pending = [] ∧ State.reset.lif.held = []) ∧
    { State.reset with lif.awaiting := true }.lif.awaiting = true ∧
    (let i : Instr := .identify (sound 1#16 [])
     let s := { State.reset with lif.held := [i] }
     s.pending = [] ∧ s.lif.held = i :: [] ∧ s.lif.awaiting = false ∧ s.lif.resetTaken = false ∧
      ∃ t, exec i { s with lif.held := [] } = .next t) := by
  refine ⟨⟨rfl, rfl⟩, rfl, rfl, rfl, rfl, rfl, _, rfl⟩

theorem witness_FramesDecodeToTheirCommands :
    ((Instr.identify (sound 7#16 [])).wellFormed = true ∧
      frameOf (.identify (sound 7#16 [])) = some (0x01#8, sound 7#16 [])) ∧
    frameIsBad [0x01#8, 0#8, 0#8, 7#8, 0#8, 0#8, 0x7F#8, 0xD1#8, 0x64#8, 0x83#8] = false ∧
    frameIsBad [] = true := by decide +kernel

/-- A bad frame; kinds 00h and 1Eh; a flags byte of 01h; a length of 1 for Identify; all of them well formed. -/
theorem witness_FrameChecksAnswerInOrder :
    Listening operating ∧ frameIsBad [] = true ∧
    { State.reset with lines.rst := true }.inReset = true ∧
    ({ State.reset with lif.awaiting := true }.inReset = false ∧
      linkReady { State.reset with lif.awaiting := true } = false) ∧ ((0x00#8).toNat < 0x01 ∧ 0x1D < (0x1E#8).toNat) ∧
    (frameOf (.reclaim ⟨1#16, 1#8, [0#8]⟩) = some (0x1D#8, ⟨1#16, 1#8, [0#8]⟩) ∧ (1#8 : Byte) ≠ 0#8) ∧
    (frameOf (.identify ⟨1#16, 0#8, [0#8]⟩) = some (0x01#8, ⟨1#16, 0#8, [0#8]⟩) ∧ lengthAllowed 0x01 1 = false) ∧
    ((Instr.reclaim ⟨1#16, 1#8, [0#8]⟩).wellFormed = true ∧ (Instr.identify ⟨1#16, 0#8, [0#8]⟩).wellFormed = true) ∧
    (∃ t, exec (.badFrame []) operating = .next t) ∧
    ∃ t, exec (.unknownRequestKind 0x1E#8 ⟨1#16, 0#8, []⟩) operating = .next t :=
  ⟨operating_listens, by decide, by decide, by decide, by decide, by decide, by decide, by decide, ⟨_, rfl⟩, _, rfl⟩

theorem witness_FrameIsNotTakenBeforeItsTurn :
    let f : Frame := sound 1#16 []
    frameOf (.stop f) = some (0x03#8, f) ∧ Instr.stop f ≠ .unknownRequestKind 0x03#8 f ∧
    { State.reset with lines.rst := true }.inReset = true ∧
    { State.reset with lif.awaiting := true }.inReset = false ∧
    linkReady { State.reset with lif.awaiting := true } = false :=
  ⟨rfl, by decide, rfl, rfl, rfl⟩

theorem witness_FrameTransmitSendsOldest :
    let s := { State.reset with lif.tx := [.attention (some 1), .reply true false 1#16 [0x01#8, 0#8]] }
    s.lif.tx = .attention (some 1) :: [.reply true false 1#16 [0x01#8, 0#8]] ∧
    (∀ w, s.lif.wire = some w → w.reset = false) := ⟨rfl, fun w h => by cases h⟩

theorem witness_Listening : Listening State.reset := ⟨rfl, rfl⟩

theorem witness_IdentifyAnswersDescription :
    ∃ t, exec (.identify (sound 7#16 [])) State.reset = .next t := ⟨_, rfl⟩

theorem witness_StoreStatusAndClearStoreFaults :
    (∃ t, exec (.storeStatus (sound 7#16 [])) State.reset = .next t) ∧
    ∃ t, exec (.clearStoreFaults (sound 7#16 [])) State.reset = .next t := ⟨⟨_, rfl⟩, _, rfl⟩

/-- Each of the four resets meets its own condition. -/
theorem witness_ResetLeavesResetValues :
    (isResetEvent .resetTakesEffect = true ∧
      { State.reset with lif.wire := some ⟨[], true⟩ }.lif.wire = some ⟨[], true⟩) ∧
    (isResetEvent .rstAssert = true ∧ State.reset.lines.rst = false) ∧
    isResetEvent .powerOn = true ∧ isResetEvent .powerLoss = true := ⟨⟨rfl, rfl⟩, ⟨rfl, rfl⟩, rfl, rfl⟩

/-- A program at bank 0 beside a program at bank 1 and an erase at bank 2, cut off by each kind of reset. -/
theorem witness_CutProgramLeavesImageOrNotValid :
    let s := ((running (.program 16 ⟨0, 0⟩) { operating with plu := oneSlab .programming, lif.wire := some ⟨[], true⟩ }).withBank 1
      { idleBank with running := some (.program 17 ⟨1, 0⟩) }).withBank 2
      { idleBank with running := some (.erase 2), held := some ⟨2, .running, 0⟩ }
    (isResetEvent .resetTakesEffect = true ∧ ∃ w, s.lif.wire = some w ∧ w.reset = true) ∧ s.lines.rst = false ∧
    (s.bank 0).running = some (.program 16 ⟨0, 0⟩) ∧
    (∀ a, inSlab ⟨0, 0⟩ a →
      (∀ (b' : Fin 4) (q' : Nat) (p' : Place), b' ≠ 0 → (s.bank b').running = some (.program q' p') →
        ¬ inSlab p' a) ∧
      ∀ (b' : Fin 4) (e : HeldErase), (s.bank b').held = some e → e.condition ≠ .waiting →
        ¬ inSegment e.segment a) ∧
    s.plu.bufferOf 16 = some (buffer .programming) ∧ (bufferImage (buffer .programming)).length = 262144 ∧
    (∃ t, exec .rstAssert s = .next t) ∧ ∃ t, exec .resetTakesEffect s = .next t := by
  refine ⟨⟨rfl, _, rfl, rfl⟩, rfl, by decide, fun a h => ⟨fun b' q' p' hb hr => ?_, fun b' e he _ => ?_⟩, by decide, ?_,
    ⟨_, rfl⟩, _, rfl⟩
  · match b' with
    | 0 => exact absurd rfl hb
    | 1 =>
      cases hr
      simp only [inSlab, slabBase, Config.slabsPerSegment, Config.slabBytes] at h ⊢
      omega
    | 2 => cases hr
    | 3 => cases hr
  · match b' with
    | 0 => cases he
    | 1 => cases he
    | 2 =>
      cases he
      simp only [inSlab, inSegment, slabBase, Config.slabsPerSegment, Config.slabBytes] at h ⊢
      omega
    | 3 => cases he
  · simp only [bufferImage, buffer, List.length_append, zeros, List.length_replicate, List.reverse_cons,
      List.reverse_nil, List.nil_append, List.flatMap_cons, List.flatMap_nil, List.append_nil]
    decide

theorem witness_ResetReleaseAndCustodyLine :
    let s := { State.reset with lines.rst := true }
    (s.lines.rst = true ∧ s.rtn.reportOwed = false) ∧
    ({ s with rtn.reportOwed := true }.lines.rst = true ∧ { s with rtn.reportOwed := true }.rtn.reportOwed = true) :=
  ⟨⟨rfl, rfl⟩, rfl, rfl⟩

theorem witness_StartBeginsRebuild :
    (State.reset.cfg.mode = .standby ∧ State.reset.banksIdle = true ∧ 64 ≤ State.reset.cfg.staged[24]) ∧
    (let s := running (.erase 0) State.reset
     Listening s ∧ s.cfg.mode = .standby ∧ s.banksIdle = false) ∧
    operating.cfg.mode ≠ .standby := by
  refine ⟨by decide +kernel, ⟨⟨rfl, rfl⟩, by decide, by decide +kernel⟩, by decide⟩

/-- STOPPING with a bank at work and with every bank idle and a slab that waits for a place; its last completion; a
condemn that is outstanding to the end. -/
theorem witness_StoppingEnds :
    let idle := { operating with
      cfg.mode := .stopping
      plu := { oneSlab .queued with map := [(16, ⟨none, 1⟩)], waitList := [16] } }
    let busy := running (.read ⟨.restore 0, ⟨0, 0⟩, 0, 1⟩) idle
    (idle.cfg.mode = .stopping ∧ idle.banksIdle = true ∧ (stoppingCheck idle).cfg.mode = .standby) ∧
    busy.banksIdle = false ∧
    (isBankCompletion (.restoreReadComplete 0 .ok) = true ∧ busy.cfg.mode = .stopping ∧ busy.cfg.rebuild = none ∧
      ∃ t, exec (.restoreReadComplete 0 .ok) busy = .next t) ∧
    (some (buffer .filling) ∈ (oneSlab .filling).buffers.toList ∧ (oneSlab .filling).placeOf 16 = some ⟨0, 0⟩) ∧
    (let r : Rcl := { resetRcl with
       outstanding := resetRcl.outstanding.set 2 (some ⟨6, true⟩), creditsHeld := 1, creditsReserved := 1 }
     (stoppingCheck { idle with rcl := r }).rcl =
      { resetRcl with creditsHeld := 1, counters := { resetRcl.counters with refused := 1 } }) :=
  ⟨by decide +kernel, by decide +kernel, ⟨rfl, rfl, rfl, _, rfl⟩, by decide, by decide +kernel⟩

theorem witness_StopFinishesStoreWork :
    (operating.cfg.mode = .operating ∧ (∀ i, slotAtRest (operating.slot i) = true) ∧ OneOpen operating) ∧
    (∃ i, slotAtRest ((withStream (scanning .opened [] 0)).slot i) = false) ∧ State.reset.cfg.mode ≠ .operating := by
  refine ⟨⟨rfl, by decide, ?_⟩, ⟨0, by decide⟩, by decide⟩
  unfold OneOpen
  decide

/-- Setting numbers 19, 20, 25 and 26 and values at the ends of their ranges. -/
theorem witness_WriteSettingClampsAndApplies :
    Listening State.reset ∧ (2 ^ 32 - 1 < 2 ^ 32) ∧ (19 < 20 ∧ 3 ≤ 19 % 5) ∧ (17 < 20 ∧ 17 % 5 < 3) ∧
    (26 ≤ 26 ∧ 255 < 256) ∧ State.reset.cfg.mode ≠ .operating ∧ State.reset.cfg.inForce[25] = 0 ∧
    { State.reset with cfg.inForce := State.reset.cfg.inForce.set 25 1 }.cfg.inForce[25] ≠ 0 :=
  ⟨witness_Listening, by decide, by decide, by decide, by decide, by decide, by decide, by decide⟩

/-- A run at the end of the numbers, and each way to be out of range. -/
theorem witness_ReadSettingsAnswersValues :
    (63 ≤ 63 ∧ 1 ≤ 1 ∧ 64 ≤ 64 ∧ 1 ≤ 1) ∧ 63 < 64 ∧ 64 < 65 ∧ 1 < 2 := by decide

theorem witness_OpenStreamFillsSlot :
    let s := { operating with rcu.nextRecipe := some (2 ^ 32 - 1) }
    Listening s ∧ s.cfg.mode = .operating ∧ slotAtRest (s.slot 63) = true ∧ 1023 < 1024 ∧ 1 ≤ 1 ∧ 65535 < 65536 ∧
    2 ^ 48 - 1 < 2 ^ 48 ∧ (List.replicate 16 0#8).length = 16 ∧ s.rcu.catalog.length < 4096 ∧
    s.rcu.nextRecipe = some (2 ^ 32 - 1) ∧ 2 ^ 32 - 1 < 2 ^ 32 :=
  ⟨⟨rfl, rfl⟩, rfl, by decide, by decide, by decide, by decide, by decide, by decide, by decide, rfl, by decide⟩

/-- Slots 63 and 64, a busy slot, branch 1,024, profile 4, 0 days, recipe numbers used up; a Close Stream whose
payload is its slot. -/
theorem witness_StreamRequestsCheckInOrder :
    (63 < 64 ∧ State.reset.cfg.mode ≠ .operating ∧ operating.cfg.mode = .operating) ∧
    slotAtRest ((withStream (scanning .opened [] 0)).slot 0) = false ∧ slotAtRest (operating.slot 63) = true ∧
    (1023 < 1024 ∧ 3 < 4) ∧ (∀ k, operating.rcu.nextRecipe = some k → 2 ^ 32 ≤ k) ∧
    (wellFormedRequest 0x09#8 (sound 1#16 [64#8]) = true ∧ (sound 1#16 [64#8]).payload = 64#8 :: [] ∧
      63 < (64#8 : Byte).toNat) ∧
    State.reset.cfg.mode = .standby := by
  refine ⟨by decide, by decide, by decide, by decide, fun k h => ?_, by decide, rfl⟩
  cases h

theorem witness_StreamDataTakesWholePayload :
    (let x := (withStream (scanning .opened [1#8] 0)).slot 0
     x.state = .opened ∧ [2#8].length ≤ 262144 - x.intake.length) ∧
    (let x : Slot := { freeSlot with state := .opened, intake := List.replicate 262144 0#8 }
     x.state = .opened ∧ 262144 - x.intake.length < [2#8].length) ∧
    (operating.slot 0).state ≠ .opened := by
  refine ⟨by decide, ⟨rfl, ?_⟩, by decide⟩
  simp only [List.length_replicate]
  decide

theorem witness_CloseStreamDrains :
    (let x := (withStream (scanning .opened [1#8] 0)).slot 0
     x.state = .opened ∧ x.chunker.len < x.intake.length) ∧
    (let s := { withStream (scanning .opened [1#8] 1) with dge.current := some 1 }
     (s.slot 0).state = .opened ∧ (s.slot 0).phase = some .scanning ∧ (s.slot 0).hand = none ∧
      (s.slot 0).chunker.len = (s.slot 0).intake.length ∧ 0 < (s.slot 0).chunker.len ∧ s.dge.current ≠ none) ∧
    (let s := withStream (scanning .opened [1#8] 1)
     s.dge.current = none ∧ ∀ j, j ≠ 0 → (s.slot j).phase ≠ some .digestWait) ∧
    (let s := { withStream (scanning .opened [] 0) with rcu.catalog := [(64, entry .opened)] }
     (s.slot 0).chunker.len = (s.slot 0).intake.length ∧ (s.slot 0).chunker.len = 0 ∧
      assocGet s.rcu.catalog (s.slot 0).recipe = some (entry .opened)) ∧
    ((withStream (scanning .draining [] 0)).slot 0).state = .draining ∧ (operating.slot 0).state = .free := by
  decide

theorem witness_AbortAndRetireStream :
    (Listening (withStream (scanning .opened [1#8] 0)) ∧
      ((withStream (scanning .opened [1#8] 0)).slot 0).state = .opened) ∧
    ((operating.slot 0).state ≠ .opened ∧ (operating.slot 0).state ≠ .draining ∧ (operating.slot 0).state ≠ .done) ∧
    (let s := { withStream (inHand .opened) with
       plu := stored .closed 2, dix.verifies := resetDix.verifies.set 0 (some ⟨3, 16, 0, 1, none⟩)
       rcu := { resetRcu with walk := some ⟨65, 0⟩, catalog := [(64, entry .opened), (65, entry .releasing)] } }
     s.rcu.walk ≠ none ∧ s.cfg.mode = .operating ∧ { s with rcu.walk := none }.rcu.walk = none ∧
      assocGet s.plu.map 16 = some ⟨some ⟨0, 0⟩, 2⟩ ∧
      assocGet s.rcu.catalog (s.slot 0).recipe = some (entry .opened) ∧
      (assocGet (abortSlot 0 s).rcu.catalog 64).isSome) ∧
    ((withStream { freeSlot with state := .done }).slot 0).state = .done :=
  ⟨⟨⟨rfl, rfl⟩, by decide⟩, by decide, by decide, by decide⟩

/-- Levels 1 and 256, and the first values outside each option's range. -/
theorem witness_SetStreamOptionSetsOneOption :
    slotAtRest (operating.slot 0) = true ∧ slotAtRest ((withStream (scanning .opened [] 0)).slot 0) = false ∧
    (1 ≤ 1 ∧ 256 ≤ 256) ∧ (2 < 3 ∧ 1 < 2 ∧ 256 < 257) := by decide

/-- A kind turned off; a pair added to the empty set; an attention frame still to be sealed. -/
theorem witness_RaiseAddsPairAndAttention :
    NoticeLaw State.reset ∧ (deviceNotice .storeLow).slot.isSome = (deviceNotice .storeLow).kind.perStream ∧
    kindEnabled 0#11 .storeLow = false ∧ kindEnabled State.reset.rpu.mask .storeLow = true ∧
    deviceNotice .storeLow ∉ State.reset.rpu.notices ∧ TxFrame.attention none ∈ [TxFrame.attention none] := by
  refine ⟨?_, by decide, by decide, by decide, by decide, by decide⟩
  unfold NoticeLaw
  decide

/-- An empty set, and one of two pairs. -/
theorem witness_TakeNoticeTakesLowestRank :
    NoticeLaw operating ∧ operating.rpu.notices = [] ∧
    (let s := { operating with rpu.notices := [slotNotice .streamDone 63, deviceNotice .linkError] }
     Listening s ∧ NoticeLaw s ∧ s.rpu.notices ≠ []) := by
  refine ⟨?_, rfl, ⟨rfl, rfl⟩, ?_, by decide⟩ <;> unfold NoticeLaw <;> decide

theorem witness_SetNoticeMaskRemovesMaskedPairs :
    2047 < 2048 ∧ 2048 ≤ 2048 ∧ 65535 < 65536 ∧ (1023).testBit (NoticeKind.linkError.rank - 1) = false := by decide

theorem witness_TakeSnapshotFillsEmptyLatches :
    [0#8].length ≤ 64 ∧ 1 < (2#8 : Byte).toNat ∧ (1#8 : Byte).toNat ≤ 1 ∧ (∀ b ∈ [63#8], b.toNat ≤ 63) ∧
    (∃ b ∈ [64#8], 63 < b.toNat) := by decide

theorem witness_ReadSnapshotEmptiesLatch :
    State.reset.rpu.slotLatches[(63 : Fin 64)] = none ∧ State.reset.rpu.deviceLatch = none ∧
    (latchSlot 63 State.reset).rpu.slotLatches[(63 : Fin 64)] = some (captureSlot State.reset 63) ∧
    (latchDevice State.reset).rpu.deviceLatch = some (captureDevice State.reset) ∧ (63 < 64 ∧ 254 < 255) :=
  ⟨by decide, rfl, by decide, rfl, by decide⟩

/-- Days at and past the range and the clamp, held and unheld branches, each side of CUSTODY. -/
theorem witness_RetentionRequestsStartWrites :
    (Listening operating ∧ operating.rtn.inFlight = none) ∧
    { operating with rtn.inFlight := some .freeze }.rtn.inFlight ≠ none ∧
    (65535 < 65536 ∧ 65535 ≤ 65535 ∧ 0 < 7 ∧ 7 ≤ 0 + 7 ∧ 0 + 7 < 8) ∧
    (1023 < 1024 ∧ 1023 ≤ 1023) ∧
    assocGet [(1023, 5)] 1023 = some 5 ∧ assocGet ([] : Assoc Nat) 1023 = none ∧
    (let s := { operating with rtn.memory := ⟨5, true, [(1023, 5)]⟩ }
     Listening s ∧ s.rtn.memory.freeze = true ∧ s.lines.custody = false ∧
      { s with lines.custody := true }.lines.custody = true) :=
  ⟨⟨operating_listens, rfl⟩, by decide, by decide, by decide, by decide, by decide, ⟨rfl, rfl⟩, rfl, rfl, rfl⟩

theorem witness_ReadRetentionReportsValuesInForce : 1023 ≤ 1023 ∧ 1023 < 1024 ∧ 255 < 256 ∧ 65535 < 65536 := by decide

/-- A DAY write in each mode that its clauses name, and one that completes under RST#. -/
theorem witness_RetentionWriteTakesForce :
    let s := { State.reset with rtn.inFlight := some (.day 7) }
    s.rtn.inFlight = some (.day 7) ∧ (s.lines.rst = false ∧ s.cfg.mode = .standby) ∧
    { s with cfg.mode := .rebuilding }.cfg.mode = .rebuilding ∧ { s with lines.rst := true }.lines.rst = true ∧
    { s with cfg.mode := .operating }.cfg.mode = .operating :=
  ⟨rfl, ⟨rfl, rfl⟩, rfl, rfl, rfl⟩

theorem witness_ExpiryScanQueuesExpired :
    let s := { operating with
      rtn.inFlight := some (.day 7)
      rcu := { resetRcu with walk := some ⟨65, 0⟩, catalog := [(64, entry .live), (65, entry .releasing)] } }
    s.rtn.inFlight = some (.day 7) ∧ s.lines.rst = false ∧ s.cfg.mode = .operating ∧ s.rcu.walk ≠ none ∧
    CatalogLaw s ∧ (∃ d, RetentionWrite.day 7 = .day d) ∧
    { s with rcu.walk := none }.rcu.walk = none := by
  refine ⟨rfl, rfl, rfl, by decide, ?_, ⟨7, rfl⟩, rfl⟩
  unfold CatalogLaw
  decide

/-- Selectors 1,023, 1,024 and 65,535, and a catalog with and without the number. -/
theorem witness_CatalogRequestsAnswerEntries :
    let s := { operating with rcu.catalog := [(64, entry .live)] }
    Listening s ∧ s.cfg.mode = .operating ∧ State.reset.cfg.mode ≠ .operating ∧ 2 ^ 32 - 1 < 2 ^ 32 ∧
    (1023 < 1024 ∧ 1024 ≠ 65535 ∧ 1023 ≤ 1023) ∧ assocGet s.rcu.catalog 65 = none ∧
    assocGet s.rcu.catalog 64 = some (entry .live) :=
  ⟨⟨rfl, rfl⟩, rfl, by decide, by decide, by decide, rfl, rfl⟩

/-- A slab that is absent, buffered and stored; a full table; each state of an entry; lengths at their ends. -/
theorem witness_RestoreReadsAnswerUnderReadSlots :
    let buffered := { operating with plu := oneSlab .filling, rcu.catalog := [(64, entry .live)] }
    let programmed := { operating with plu := stored .closed 1, rcu.catalog := [(64, entry .queued)] }
    let full := { buffered with lif.reads := Vector.replicate 16 (some ⟨1#16, .chunk⟩) }
    let read := running (.read ⟨.restore 15, ⟨0, 0⟩, 0, 1⟩) full
    (Listening buffered ∧ buffered.cfg.mode = .operating ∧ State.reset.cfg.mode ≠ .operating) ∧
    (assocGet operating.rcu.catalog 64 = none ∧ assocGet buffered.rcu.catalog 64 = some (entry .live) ∧
      (entry .live).recordCount ≤ 1 ∧ 0 < (entry .live).recordCount ∧ (entry .live).blocks[0 / 4096]? = some ⟨16, 0⟩) ∧
    ((entry .releasing).state = .releasing ∧ (entry .opened).state = .opened ∧ (entry .queued).state = .queued) ∧
    (1 ≤ 8192 ∧ 8192 ≤ 8192 ∧ 253952 + 8192 ≤ 262144 ∧ 262144 < 262144 + 1 ∧ 8192 < 8193) ∧
    operating.plu.mapped 16 = false ∧
    (full.plu.mapped 16 = true ∧ ∀ i : Fin 16, full.lif.reads[i] ≠ none) ∧
    (buffered.plu.mapped 16 = true ∧ buffered.lif.reads[(0 : Fin 16)] = none ∧
      buffered.plu.bufferOf 16 = some (buffer .filling)) ∧
    (programmed.plu.bufferOf 16 = none ∧ programmed.plu.placeOf 16 = some ⟨0, 0⟩) ∧
    ((read.bank 0).running = some (.read ⟨.restore 15, ⟨0, 0⟩, 0, 1⟩) ∧
      read.lif.reads[(15 : Fin 16)] = some ⟨1#16, .chunk⟩) :=
  ⟨⟨⟨rfl, rfl⟩, rfl, by decide⟩, by decide, by decide, by decide, by decide, by decide, by decide, by decide, by decide⟩

/-- Counts 0 and 255, and a pass with a free bank, an empty list and credits. -/
theorem witness_ReclaimAddsCreditsAndPasses :
    let r : Rcl := { resetRcl with candidates := [⟨1, none⟩], creditsHeld := 1 }
    let after := r.passOver true r.candidates
    Listening operating ∧ operating.cfg.mode = .operating ∧ State.reset.cfg.mode ≠ .operating ∧ 255 < 256 ∧
    (r.outstanding[(1 : Fin 4)] = none ∧ after.outstanding[(1 : Fin 4)] = some ⟨1, false⟩) ∧
    after.passOver true after.candidates = after ∧ r.creditsReserved ≤ r.creditsHeld ∧
    (r.eraseFlags[(1 : Fin 4)] = false ∧ ∃ x ∈ r.candidates, bankOf x.segment = 1) ∧
    (let r := { r with candidates := [⟨2, none⟩, ⟨1, some 16⟩] }
     let after := r.passOver false r.candidates
     after.outstanding[(1 : Fin 4)] = none ∧ after.outstanding[(2 : Fin 4)] = some ⟨2, true⟩) :=
  ⟨operating_listens, rfl, by decide, by decide, by decide, by decide, by decide,
    ⟨by decide, ⟨1, none⟩, by decide, by decide⟩, by decide⟩

/-- The first byte of a stream; a last byte in DRAINING without a boundary; a chunk that reaches MAX. -/
theorem witness_ScanByteTakesOneByte :
    (let x := (withStream (scanning .opened [1#8, 2#8] 0)).slot 0
     x.state = .opened ∧ x.phase = some .scanning ∧ x.hand = none ∧ x.intake[x.chunker.len]? = some 1#8 ∧
      Rolled x.chunker ∧ x.chunker.len + 1 < x.intake.length ∧ x.chunker.len + 1 < x.profile.min) ∧
    (let x := (withStream (scanning .draining [1#8] 0)).slot 0
     x.state = .draining ∧ x.intake[x.chunker.len]? = some 1#8 ∧ x.chunker.len + 1 = x.intake.length) ∧
    (let x : Slot := { scanning .opened [1#8] 0 with profile := ⟨1, 1, 1, 16, 4⟩ }
     x.profile.min ≤ x.chunker.len + 1 ∧ x.profile.max ≤ x.chunker.len + 1) :=
  ⟨⟨by decide, by decide, by decide, by decide, by unfold Rolled; decide, by decide, by decide⟩, by decide, by decide⟩

theorem witness_BoundariesDependOnChunkAlone :
    ProfileBounds ⟨64, 64, 65536, 4, 65536⟩ ∧ Rolled emptyChunker ∧
    Rolled { emptyChunker.take 7#8 with len := 0 } ∧ emptyChunker.len = 0 :=
  ⟨⟨by decide, by decide, by decide, by decide, ⟨2, by decide⟩, ⟨16, by decide⟩⟩, by unfold Rolled; decide,
    by unfold Rolled; decide, rfl⟩

/-- An engine at work; none waiting; the slot last served waits alone. -/
theorem witness_DigestCompleteQueuesLookup :
    let x : Slot := { scanning .opened [1#8] 0 with hand := some ⟨1, none⟩, phase := some .digestWait }
    let s := { operating.withSlot 63 x with dge := ⟨some 63, 63⟩ }
    (s.dge.current = some 63 ∧ (s.slot 63).hand = some ⟨1, none⟩) ∧
    (∀ i, (operating.slot i).phase ≠ some .digestWait) ∧
    (let w := operating.withSlot 63 x
     w.dge.current = none ∧ (w.slot 63).phase = some .digestWait ∧
      ∀ j, (w.slot j).phase = some .digestWait → (63 + 63 - 63) % 64 ≤ (j.val + 63 - 63) % 64) := by
  decide

/-- A hit on a stored and on a buffered slab with and without verify, a stale hit, and a miss that is refused
and one that is placed; a way that is empty, stale, programmed and pending. -/
theorem witness_LookupTakenHitsOrPlaces :
    let l : Lookup := ⟨0, sampleDigest, 1⟩
    let hit (u : Plu) : State := { withStream (inHand .opened) with
      plu := u, dix := { resetDix with lookups := [l], index := [(1925823, ⟨sampleDigest, 1, 16, 0⟩)] } }
    let miss (u : Plu) : State := { withStream (inHand .opened) with plu := u, dix := { resetDix with lookups := [l] } }
    ((hit resetPlu).dix.lookups = l :: [] ∧ IndexLaw (hit resetPlu) ∧
      assocGet (hit resetPlu).dix.index (l.digest.toNat / 2 ^ 236 * 8 + 7) = some ⟨sampleDigest, 1, 16, 0⟩) ∧
    ((stored .closed 1).mapped 16 = true ∧ (stored .closed 1).bufferOf 16 = none ∧
      (stored .closed 1).placeOf 16 = some ⟨0, 0⟩) ∧
    ((oneSlab .filling).mapped 16 = true ∧ (oneSlab .filling).bufferOf 16 = some (buffer .filling)) ∧
    resetPlu.mapped 16 = false ∧
    (IndexLaw (miss resetPlu) ∧ (placeObject (.chunk l.digest) [1#8] (miss resetPlu)).1 = none ∧
      (placeObject (.chunk l.digest) [1#8] (miss (oneSlab .filling))).1 = some ⟨16, 1⟩ ∧
      (assocGet (miss resetPlu).dix.index (l.digest.toNat / 2 ^ 236 * 8)).isNone) ∧
    (resetPlu.mapped 16 = false ∧ (stored .closed 1).pending 16 = false ∧ (oneSlab .filling).pending 16 = true) := by
  refine ⟨⟨rfl, ?_, by decide⟩, by decide, by decide, by decide, ⟨?_, by decide, by decide, by decide⟩, by decide⟩ <;>
    unfold IndexLaw <;> decide

/-- A placement that fits, one that advances within the OPEN segment and one that opens a segment, one refused for
want of a slab and one for want of a buffer. -/
theorem witness_LookupTakenHitsOrPlaces_places :
    let s (u : Plu) : State := { operating with plu := u, cfg.inForce := operating.cfg.inForce.set 23 0 }
    let full : Plu := { stored (.opened 32) 1 with nextSeq := some 17 }
    (OneOpen (s (oneSlab .filling)) ∧ SequenceLaw (s (oneSlab .filling)) ∧
      (buffer .filling).data.length + 1 + 64 * ((buffer .filling).entries.length + 1) + 64 ≤ 262144) ∧
    ((placeObject (.recipeHead 64) [1#8] (s (stored (.opened 1) 1))).1 = some ⟨17, 0⟩ ∧
      (stored (.opened 1) 1).openSegment = some (0, 1)) ∧
    ((placeObject (.recipeHead 64) [1#8] (s full)).2.plu.placeOf 17 = some ⟨1, 0⟩ ∧
      none ∈ full.buffers.toList ∧ full.freeSegments.head? = some 1) ∧
    (placeObject (.recipeHead 64) [1#8] (s { full with map := [] })).2.rcl.outstanding[(0 : Fin 4)] = some ⟨0, false⟩ ∧
    ((placeObject (.recipeHead 64) [1#8] { s full with cfg.inForce := operating.cfg.inForce }).1 = none) ∧
    (none ∉ #v[some (buffer .queued), some { buffer .programming with seq := 15 }].toList) := by
  refine ⟨⟨?_, ⟨by decide, by decide, fun n h => ?_, fun r h => by cases h⟩, by decide⟩, by decide, by decide,
    by decide +kernel, by decide, by decide⟩
  · unfold OneOpen
    decide
  · obtain rfl : 17 = n := by injection h
    decide

/-- Buckets of eight full ways: all stale, all programmed, and all pending. -/
theorem witness_LookupTakenHitsOrPlaces_fullBucket :
    let l : Lookup := ⟨0, sampleDigest, 1⟩
    let index : Assoc IndexEntry := (List.range 8).map (fun w => (1925816 + w, ⟨sampleDigest, w + 2, 16, w⟩))
    let s (u : Plu) : State := { withStream (inHand .opened) with
      plu := u, dix := { resetDix with lookups := [l], index := index } }
    let way (w : Nat) := assocGet index (l.digest.toNat / 2 ^ 236 * 8 + w)
    (∀ w < 8, (way w).any (fun e => e.length ≠ l.length)) ∧
    chooseWay resetPlu index (bucketOf sampleDigest) = .evict 0 ∧ resetPlu.mapped 16 = false ∧
    (chooseWay (stored .closed 1) index (bucketOf sampleDigest) = .evict 0 ∧ (stored .closed 1).mapped 16 = true ∧
      (stored .closed 1).pending 16 = false) ∧
    (chooseWay (oneSlab .filling) index (bucketOf sampleDigest) = .unindexed ∧ (oneSlab .filling).pending 16 = true) ∧
    (placeObject (.chunk l.digest) [1#8] (s (oneSlab .filling))).1 = some ⟨16, 1⟩ ∧ IndexLaw (s (oneSlab .filling)) := by
  refine ⟨by decide, by decide, by decide, by decide, by decide, by decide, ?_⟩
  unfold IndexLaw
  decide

/-- An ordinary record in OPEN and in DRAINING, a 4,096th record, a 1,048,576th record, and a drained stream with an
entry. -/
theorem witness_RecordsBlocksAndHeadsAreFormed :
    let x : Slot := inHand .opened
    (x.hand = some ⟨1, some sampleDigest⟩ ∧ x.records + 1 ≠ 1048576 ∧ x.state = .opened) ∧
    ((inHand .draining).hand = some ⟨1, some sampleDigest⟩ ∧ (inHand .draining).records + 1 ≠ 1048576) ∧
    ((List.replicate 4095 (⟨0#256, 16, 0, 1⟩ : Record) ++ [(⟨sampleDigest, 16, 0, 1⟩ : Record)]).length = 4096) ∧
    { x with records := 1048575 }.records + 1 = 1048576 ∧
    (let s := { withStream (scanning .draining [] 0) with rcu.catalog := [(64, entry .opened)], plu := oneSlab .filling }
     OneOpen s ∧ (s.slot 0).state = .draining ∧ (s.slot 0).phase = some .scanning ∧ (s.slot 0).hand = none ∧
      (s.slot 0).intake = [] ∧ (s.slot 0).chunker.len = 0 ∧ (s.recordBuffer 0).records = [] ∧
      assocGet s.rcu.catalog (s.slot 0).recipe = some (entry .opened)) := by
  refine ⟨by decide, by decide, ?_, by decide, ?_⟩
  · simp only [List.length_append, List.length_replicate, List.length_cons, List.length_nil]
  · refine ⟨?_, by decide, by decide, by decide, by decide, by decide, by decide, by decide⟩
    unfold OneOpen
    decide

/-- A drained stream with a record to place and one with bytes to cut; a slot deferred with each item; a filling
slab with a place, one without, and none. -/
theorem witness_RecordsBlocksAndHeadsAreFormed_deferred :
    let s (x : Slot) : State := { withStream x with rcu.catalog := [(64, entry .opened)], plu := oneSlab .filling }
    let one := (s (scanning .draining [] 0)).withRecordBuffer 0 ⟨[⟨sampleDigest, 16, 0, 1⟩], 0⟩
    let deferred (item : Item) : Slot := { inHand .draining with phase := some .deferred, item := some item }
    ((one.recordBuffer 0).records ≠ [] ∧ (one.slot 0).intake = [] ∧
      (placeObject (.recipeBlock 64 0) (blockBytes 64 0 [⟨sampleDigest, 16, 0, 1⟩]) one).1 = some ⟨16, 1⟩ ∧
      assocGet one.rcu.catalog (one.slot 0).recipe = some (entry .opened)) ∧
    (let x := (s (scanning .draining [1#8] 1)).slot 0
     x.state = .draining ∧ x.phase = some .scanning ∧ x.hand = none ∧ x.intake.length ≤ x.chunker.len ∧ 0 < x.chunker.len) ∧
    (((s (deferred .chunk)).slot 0).item = some .chunk ∧ (deferred .chunk).hand = some ⟨1, some sampleDigest⟩) ∧
    ((s (deferred .block)).slot 0).item = some .block ∧ ((s (deferred .head)).slot 0).item = some .head ∧
    (some (buffer .filling) ∈ (oneSlab .filling).buffers.toList ∧ (oneSlab .filling).placeOf 16 = some ⟨0, 0⟩) ∧
    { oneSlab .filling with map := [(16, ⟨none, 1⟩)] }.placeOf 16 = none ∧
    (∀ x, some x ∈ (oneSlab .queued).buffers.toList → x.state ≠ .filling) := by
  refine ⟨by decide, by decide, by decide, by decide, by decide, by decide, by decide, fun x h => ?_⟩
  simp [oneSlab] at h
  subst h
  decide

/-- A verify with copied bytes, one whose read runs, and one that has left the table. -/
theorem witness_VerifyMatchesOrPlacesAnew :
    let v (copied : Option (List Byte)) : Verify := ⟨3, 16, 0, 1, copied⟩
    let s (copied : Option (List Byte)) : State :=
      running (.read ⟨.verify 0 3, ⟨0, 0⟩, 0, 1⟩)
        { withStream (inHand .opened) with dix.verifies := resetDix.verifies.set 0 (some (v copied)) }
    ((s (some [1#8])).dix.verifies[(0 : Fin 64)] = some (v (some [1#8])) ∧ [1#8] = handBytes (inHand .opened) ∧
      [9#8] ≠ handBytes (inHand .opened) ∧ (inHand .opened).hand = some ⟨1, some sampleDigest⟩) ∧
    ((s none).dix.verifies[(0 : Fin 64)] = some (v none) ∧
      ((s none).bank 0).running = some (.read ⟨.verify 0 3, ⟨0, 0⟩, 0, 1⟩)) ∧
    operating.dix.verifies[(0 : Fin 64)] = none := by
  decide

/-- A running erase suspended 14 and 15 times, a bank at work, an idle bank; then a read, a program, an erase
and nothing to choose. -/
theorem witness_BanksChooseReadsThenPrograms :
    let erasing (n : Nat) : Bank := { idleBank with running := some (.erase 0), held := some ⟨0, .running, n⟩ }
    let j : ReadJob := ⟨.walk, ⟨0, 0⟩, 0, 1⟩
    ((erasing 14).held = some ⟨0, .running, 14⟩ ∧ 14 < 15 ∧ 15 ≤ 15 ∧ (erasing 14).readQueue = []) ∧
    ({ idleBank with running := some (.read j) }.running ≠ none ∧ idleBank.running = none ∧ idleBank.held = none) ∧
    { idleBank with readQueue := [j] }.readQueue = j :: [] ∧
    ({ idleBank with programQueue := [16] }.programQueue = 16 :: [] ∧ (stored .closed 1).placeOf 16 = some ⟨0, 0⟩) ∧
    ((erasing 14).programQueue = [] ∧ idleBank.programQueue = []) := by
  decide

/-- The laws that a part with slab 16 on its way keeps. -/
theorem oneSlab_laws :
    let s := running (.program 16 ⟨0, 0⟩) { operating with plu := oneSlab .programming }
    SequenceLaw s ∧ OneOpen s ∧ (s.bank 0).running = some (.program 16 ⟨0, 0⟩) ∧
      s.plu.bufferOf 16 = some (buffer .programming) := by
  refine ⟨⟨by decide, by decide, fun n h => ?_, fun r h => by cases h⟩, ?_, by decide, by decide⟩
  · obtain rfl : 17 = n := by injection h
    decide
  · unfold OneOpen
    decide

/-- A program of a one-object image of R61 at its place, with a stream that waits for it. -/
theorem witness_ProgramCompleteWritesSlab :
    let x := { buffer .programming with header := some (BitVec.ofNat 16 0, BitVec.ofNat 8 0) }
    (let s := running (.program 16 ⟨0, 0⟩) { operating with plu := oneSlab .programming }
     (s.bank 0).running = some (.program 16 ⟨0, 0⟩) ∧ s.plu.bufferOf 16 = some (buffer .programming) ∧ SequenceLaw s) ∧
    x.data.length + 64 * x.entries.length + 64 ≤ 262144 ∧ (1 ≤ x.entries.length ∧ x.seq ≤ 4294967294) ∧
    (let y : Slot := { freeSlot with state := .committing, headSeq := some 16 }
     ((withStream y).slot 0).state = .committing ∧ ((withStream y).slot 0).headSeq = some 16) := by
  obtain ⟨h1, -, h2, h3⟩ := oneSlab_laws
  exact ⟨⟨h2, h3, h1⟩, by decide, by decide, by decide, by decide⟩

/-- A commit of a recipe that stays LIVE, one of an expired recipe behind a running walk, and a floor that leaves
segment 1. -/
theorem witness_ProgramCompleteWritesSlab_commits :
    let y : Slot := { freeSlot with state := .committing, headSeq := some 16, recipe := 64 }
    let s (day : Nat) : State := running (.program 16 ⟨0, 0⟩) { withStream y with
      plu := oneSlab .programming, rtn.memory := ⟨day, false, []⟩
      rcu := { resetRcu with catalog := [(64, entry .committing)], walk := some ⟨63, 0⟩ } }
    let t (day : Nat) : State := commitSlot 0 (s day)
    (assocGet (t 0).rcu.catalog 64 = some (entry .live) ∧ (t 0).rcu.releaseQueue = [] ∧
      (t 0).rcu.counters.committed = 1 ∧ (t 0).slots[(0 : Fin 64)].summary = some ⟨.committed, none, 64, 0, 0, 0, 0⟩) ∧
    (assocGet (t 9).rcu.catalog 64 = some { entry .queued with job := some .release } ∧
      (t 9).rcu.releaseQueue = [64]) ∧
    (64 ∉ (s 0).rcu.releaseQueue ∧ (s 9).rcu.walk ≠ none ∧ (s 0).slots[(1 : Fin 64)].phase ≠ some .deferred) ∧
    ({ oneSlab .programming with map := [(15, ⟨some ⟨1, 0⟩, 0⟩), (16, ⟨some ⟨0, 0⟩, 1⟩)], floor := some 15 } : Plu).floorSegment
      = some 1 := by
  decide +kernel

/-- A failing program with a FREE segment and with none. -/
theorem witness_FailedProgramIsRetargeted :
    (let s := running (.program 16 ⟨0, 0⟩) { operating with plu := oneSlab .programming }
     (s.bank 0).running = some (.program 16 ⟨0, 0⟩) ∧ s.plu.bufferOf 16 = some (buffer .programming) ∧ OneOpen s ∧
      assocGet s.plu.map 16 = some ⟨some ⟨0, 0⟩, 1⟩ ∧ assocGet s.plu.segments 0 ≠ some .free ∧
      s.cfg.mode ≠ .stopping ∧ s.plu.freeSegments = 1 :: []) ∧
    { oneSlab .programming with segments := [(0, .opened 1)] }.freeSegments = [] := by
  obtain ⟨-, h0, h2, h3⟩ := oneSlab_laws
  exact ⟨⟨h2, h3, h0, by decide, by decide, by decide, by decide⟩, by decide⟩

/-- Sequence 16 fails beside 17 QUEUED or FILLING in the same segment: with segment 1 FREE, with segment 2 OPEN
besides, and with no segment FREE. -/
theorem witness_FailedProgramIsRetargeted_moves :
    let s (other : BufferState) (segments : Assoc SegState) : State := { operating with
      plu := { oneSlab .programming with
        buffers := #v[some (buffer .programming), some { buffer other with seq := 17 }]
        map := [(16, ⟨some ⟨0, 0⟩, 1⟩), (17, ⟨some ⟨0, 1⟩, 1⟩)], segments := segments }
      stc.banks := operating.stc.banks.set 0 { idleBank with
        running := some (.program 16 ⟨0, 0⟩), programQueue := [17] } }
    let after (other : BufferState) (segments : Assoc SegState) := programFailed 0 16 ⟨0, 0⟩ (s other segments)
    let open0 : Assoc SegState := [(0, .opened 2), (1, .free)]
    (((s .queued open0).bank 0).running = some (.program 16 ⟨0, 0⟩) ∧ OneOpen (s .queued open0) ∧
      [16, 17].Pairwise (· < ·) ∧ some { buffer .queued with seq := 17 } ∈ (s .queued open0).plu.buffers.toList ∧
      ((s .queued open0).plu.placeOf 17).map Place.segment = some 0) ∧
    ((after .queued open0).plu.placeOf 17 = some ⟨1, 1⟩ ∧ ((after .queued open0).bank 0).programQueue = [] ∧
      ((after .queued open0).bank 1).programQueue = [17] ∧
      assocGet (after .queued open0).plu.segments 1 = some (.opened 2) ∧
      (after .queued open0).rcl.outstanding[(0 : Fin 4)] = some ⟨0, false⟩) ∧
    ((after .filling open0).plu.placeOf 17 = some ⟨1, 1⟩ ∧ ((after .filling open0).bank 1).programQueue = []) ∧
    assocGet (after .queued [(0, .closed), (1, .free), (2, .opened 1)]).plu.segments 1 = some .closed ∧
    (after .queued [(0, .opened 2)]).plu.waitList = [16, 17] := by
  refine ⟨⟨by decide, ?_, by decide, by decide, by decide⟩, by decide +kernel, by decide +kernel, by decide +kernel,
    by decide +kernel⟩
  unfold OneOpen
  decide

/-- A walk with a further block in the store, one at its last block, and one abandoned. -/
theorem witness_WalkReadsGiveBackReferences :
    let r : Recipe := { entry .releasing with blocks := [⟨16, 0⟩, ⟨16, 64⟩], job := some .release }
    let s (k : Nat) : State := running (.read ⟨.walk, ⟨0, 0⟩, 0, 108⟩)
      { operating with plu := stored .closed 2, rcu := { resetRcu with walk := some ⟨64, k⟩, catalog := [(64, r)] } }
    (((s 0).bank 0).running = some (.read ⟨.walk, ⟨0, 0⟩, 0, 108⟩) ∧ (s 0).rcu.walk = some ⟨64, 0⟩ ∧
      assocGet (s 0).rcu.catalog 64 = some r ∧ r.blocks[0 + 1]? = some ⟨16, 64⟩ ∧ (s 0).plu.mapped 16 = true ∧
      (s 0).plu.bufferOf 16 = none ∧ (s 0).plu.placeOf 16 = some ⟨0, 0⟩) ∧
    (r.blocks.length ≤ 1 + 1 ∧ (s 1).rcu.releaseQueue = []) ∧ operating.rcu.walk = none := by
  decide

/-- A walk whose next block is absent, buffered with a matching and with another header, and stored; a queue whose
head is protected, not protected, and an ABORT job. -/
theorem witness_WalkReadsGiveBackReferences_starts :
    let held (number : Nat) : FillBuffer := { buffer .queued with data := blockBytes number 0 [⟨sampleDigest, 16, 0, 1⟩] }
    let bytes (number : Nat) := ((bufferImage (held number)).drop 0).take 108
    let s (job : Job) (holds : Assoc Nat) : State := { operating with
      rtn.memory := ⟨9, false, holds⟩
      rcu := { resetRcu with releaseQueue := [64], catalog := [(64, { entry .queued with job := some job })] } }
    resetPlu.mapped 16 = false ∧
    ({ oneSlab .queued with buffers := #v[some (held 64), none] }.bufferOf 16 = some (held 64) ∧
      field (bytes 64) 0 4 = 64 ∧ field (bytes 64) 4 2 = 0 ∧ field (bytes 64) 6 2 = 1 ∧ field (bytes 64) 8 4 = 4096 * 0 ∧
      field (bytes 65) 0 4 ≠ 64) ∧
    ((stored .closed 1).mapped 16 = true ∧ (stored .closed 1).bufferOf 16 = none ∧
      (stored .closed 1).placeOf 16 = some ⟨0, 0⟩) ∧
    ((s .release [(0, 0)]).rcu.walk = none ∧ (s .release [(0, 0)]).rcu.releaseQueue = 64 :: [] ∧
      (startWalks (s .release [(0, 0)])).rcu.counters.walksReturned = 1) ∧
    (assocGet (s .release []).rtn.memory.holds 0 = none ∧ (startWalks (s .release [])).rcu.counters.released = 1) ∧
    (startWalks (s .abort [(0, 0)])).rcu.counters.abortJobs = 1 := by
  refine ⟨by decide, ⟨by decide +kernel, by decide +kernel, by decide +kernel, by decide +kernel, by decide +kernel,
    by decide +kernel⟩, by decide, by decide, by decide, by decide⟩

/-- The head of a recipe with every field at its end, and index offers of a key that the bucket holds, of a new key
beside an empty way, and of one to a full bucket. -/
theorem witness_ScanReadClassifiesSlab_entries :
    let r : Recipe := { entry .live with
      branch := 65535, profileNo := 255, label := List.replicate 16 0#8, openDay := 65535, retentionDays := 65535
      expiryDay := 65535, recordCount := 2 ^ 32 - 1, byteTotal := 2 ^ 64 - 1, closeReason := some .limit
      blocks := [⟨2 ^ 32 - 1, 2 ^ 32 - 1⟩] }
    let index : Assoc IndexEntry := (List.range 8).map (fun w => (1925816 + w, ⟨sampleDigest, w + 2, w + 16, w⟩))
    let offer (length seq : Nat) := offerEntry ⟨sampleDigest, length, seq, 2 ^ 32 - 1⟩
    (r.label.length = 16 ∧ r.blockCount = r.blocks.length ∧ r.closeReason ≠ some .abort ∧
      (∀ l ∈ r.blocks, l.seq < 2 ^ 32 ∧ l.offset < 2 ^ 32)) ∧
    (∀ x ∈ index, x.2.offset < 2 ^ 32) ∧
    ((offer 2 15 index).1 = false ∧ assocGet (offer 2 17 index).2 1925816 = some ⟨sampleDigest, 2, 17, 2 ^ 32 - 1⟩) ∧
    (offer 1 15 []).1 = false ∧
    ((offer 1 15 index).1 = true ∧ assocGet (offer 1 17 index).2 1925816 = some ⟨sampleDigest, 1, 17, 2 ^ 32 - 1⟩) := by
  decide +kernel

/-- A scan read of a segment's first and of its last slab, which may find it torn. -/
theorem witness_ScanReadClassifiesSlab :
    let r : Rebuild := { freshRebuild with tallies := [(0, ⟨0, 0, 31⟩)] }
    let s := running (.read ⟨.scan, ⟨0, 31⟩, 0, 262144⟩)
      { State.reset with cfg.mode := .rebuilding, cfg.rebuild := some r }
    (s.bank 0).running = some (.read ⟨.scan, ⟨0, 31⟩, 0, 262144⟩) ∧ s.cfg.rebuild = some r ∧
    s.cfg.mode = .rebuilding ∧ (assocGet r.tallies 0).getD ⟨0, 0, 0⟩ = ⟨0, 0, 31⟩ ∧
    (assocGet r.tallies 1).getD ⟨0, 0, 0⟩ = ⟨0, 0, 0⟩ ∧
    (classifySegment 0 ⟨0, 1, 31⟩ s).rcl.eraseFlags[(0 : Fin 4)] = true := by
  decide

/-- A bank that keeps the law of the banks, with a further scan read left and its first slab running. -/
theorem witness_ScanReadClassifiesSlab_next :
    let s := running (.read ⟨.scan, ⟨0, 0⟩, 0, 262144⟩)
      { State.reset with cfg.mode := .rebuilding, cfg.rebuild := some freshRebuild }
    BankWork s ∧ freshRebuild.issued[(0 : Fin 4)] < 32 * ((s.cfg.inForce[24] + 3 - 0) / 4) ∧
    freshRebuild.classified + 1 ≠ 32 * s.cfg.inForce[24] ∧
    ((issueScan 0 s).bank 0).readQueue = [⟨.scan, ⟨0, 0⟩, 0, 262144⟩] := by
  refine ⟨fun b => ?_, by decide, by decide, by decide⟩
  match b with
  | 0 => exact ⟨fun g => ⟨fun h => (by cases h), fun ⟨e, h, _⟩ => (by cases h)⟩, fun e h => (by cases h),
      fun j h => (by cases h), fun j h => (by injection h with h; injection h with h; subst h; decide)⟩
  | 1 => exact ⟨fun g => ⟨fun h => (by cases h), fun ⟨e, h, _⟩ => (by cases h)⟩, fun e h => (by cases h),
      fun j h => (by cases h), fun j h => (by cases h)⟩
  | 2 => exact ⟨fun g => ⟨fun h => (by cases h), fun ⟨e, h, _⟩ => (by cases h)⟩, fun e h => (by cases h),
      fun j h => (by cases h), fun j h => (by cases h)⟩
  | 3 => exact ⟨fun g => ⟨fun h => (by cases h), fun ⟨e, h, _⟩ => (by cases h)⟩, fun e h => (by cases h),
      fun j h => (by cases h), fun j h => (by cases h)⟩

/-- A recount read with one more to come, and the last one. -/
theorem witness_RecountReadsCountReferences :
    let r (n : Nat) : Rebuild := { freshRebuild with phase := .recount, blocksLeft := n }
    let s (n : Nat) : State := running (.read ⟨.recount 64 0, ⟨0, 0⟩, 0, 108⟩) { State.reset with
      cfg.mode := .rebuilding, cfg.rebuild := some (r n), plu := stored .closed 1, rcu.catalog := [(64, entry .live)] }
    ((s 2).bank 0).running = some (.read ⟨.recount 64 0, ⟨0, 0⟩, 0, 108⟩) ∧ (s 2).cfg.rebuild = some (r 2) ∧
    (s 2).cfg.mode = .rebuilding ∧ 1 < (r 2).blocksLeft ∧ assocGet (s 2).rcu.catalog 64 = some (entry .live) ∧
    (r 1).blocksLeft ≤ 1 ∧
    (let u := issueNextRecount 0 ((s 2).onRebuild (fun x => { x with toIssue := [(64, 0)] }))
     (u.bank 0).readQueue = [⟨.recount 64 0, ⟨0, 0⟩, 0, 108⟩] ∧ u.cfg.rebuild.any (fun x => x.toIssue.isEmpty) = true) := by
  decide

/-- The last read of a scan; a judgement of two heads of one recipe; a recount with a block to read and one without. -/
theorem witness_RecountReadsCountReferences_begins :
    let r : Rebuild := { freshRebuild with
      classified := 131071, heads := [(64, { entry .live with head := some ⟨16, 0⟩ }), (64, { entry .live with head := some ⟨17, 0⟩ })] }
    let s := running (.read ⟨.scan, ⟨0, 31⟩, 0, 262144⟩)
      { State.reset with cfg.mode := .rebuilding, cfg.rebuild := some r, plu := stored .closed 0 }
    ((s.bank 0).running = some (.read ⟨.scan, ⟨0, 31⟩, 0, 262144⟩) ∧ s.cfg.rebuild = some r ∧
      r.classified + 1 = 32 * s.cfg.inForce[24]) ∧
    (assocGet (catalogJudgement 0 s).rcu.catalog 64).bind Recipe.head = some ⟨17, 0⟩ ∧
    (let u := { s with rcu.catalog := [(64, entry .live)] }
     AssocWf u.rcu.catalog ∧ u.plu.mapped 16 = true ∧ (∀ b' : Fin 4, (u.bank b').readQueue = []) ∧ (u.bank 0).held = none ∧
      (∀ b' : Fin 4, b' ≠ 0 → (u.bank b').running = none) ∧
      ((beginRecount 0 u).bank 0).readQueue = [⟨.recount 64 0, ⟨0, 0⟩, 0, 108⟩]) ∧
    (beginRecount 0 s).cfg.mode = .operating := by
  decide +kernel

/-- A rebuild ends with a scan owed while bank 1 erases a torn segment: segment 1, emptied by the walk that the scan
starts, is listed, and no condemn is issued at its bank. -/
theorem witness_RecountReadsCountReferences_owedScan :
    let expired : Recipe := { entry .live with blocks := [], blockCount := 0, recordCount := 0, head := some ⟨16, 0⟩ }
    let s : State := { State.reset with
      cfg := { State.reset.cfg with
        mode := .rebuilding, rebuild := some { freshRebuild with phase := .recount, highestSeq := some 20 }
        inForce := State.reset.cfg.inForce.set 21 1 }
      rtn := { State.reset.rtn with memory := ⟨9, false, []⟩, scanOwed := true }
      rcu.catalog := [(64, expired)]
      rcl.eraseFlags := resetRcl.eraseFlags.set 1 true
      plu := { resetPlu with map := [(16, ⟨some ⟨1, 0⟩, 1⟩)], segments := [(1, .closed), (5, .erasing)] }
      stc.banks := State.reset.stc.banks.set 1 { idleBank with held := some ⟨5, .waiting, 0⟩ } }
    let t := resumption s
    s.rcl.eraseFlags[(1 : Fin 4)] = true ∧ t.rcl.eraseFlags[(1 : Fin 4)] = true ∧
    (s.rcl.candidates = [] ∧ AssocWf s.plu.map ∧ AssocWf s.plu.segments ∧ t.cfg.counters.recipesLive = 1) ∧
    t.rcl.candidates = [⟨1, some 16⟩] ∧ t.rcl.outstanding[(1 : Fin 4)] = none ∧
    (resumption { s with rcl := resetRcl }).rcl.outstanding[(1 : Fin 4)] ≠ none := by
  decide +kernel

/-- A running erase with nothing behind it, and one with a CONDEMNED segment waiting. -/
theorem witness_EraseCompleteFreesOrRetires :
    let s := operating.withBank 0 { idleBank with running := some (.erase 0), held := some ⟨0, .running, 15⟩ }
    let a : State := { s with plu.segments := [(0, .erasing), (4, .free)] }
    let b : State := { s with plu.segments := [(0, .erasing), (4, .condemned)] }
    ((a.bank 0).running = some (.erase 0) ∧ assocGet a.plu.segments 0 = some .erasing ∧ OneOpen a ∧
      a.plu.nextCondemned 0 = none ∧ a.plu.waitList = [] ∧ ∀ i, (a.slot i).phase ≠ some .deferred) ∧
    (OneOpen b ∧ b.plu.nextCondemned 0 = some 4 ∧ b.cfg.mode = .operating) ∧
    (let w : State := { a with plu := { a.plu with
       buffers := #v[some (buffer .queued), none], map := [(16, ⟨none, 1⟩)], waitList := [16] } }
     w.plu.waitList ≠ [] ∧ w.plu.waitList.Pairwise (· < ·) ∧ w.plu.waitList[0]? = some 16 ∧
      assocGet w.plu.map 16 = some ⟨none, 1⟩ ∧ ∀ h n, assocGet w.plu.segments h ≠ some (.opened n)) ∧
    (let w : Plu := { a.plu with
       segments := [(0, .free), (4, .opened 1)], map := [(16, ⟨none, 0⟩)], waitList := [16] }
     w.waitList ≠ [] ∧ assocGet w.segments 4 = some (.opened 1) ∧
      (serveWaitList 0 { a with plu := w }).rcl.outstanding[(0 : Fin 4)] = some ⟨0, false⟩) := by
  refine ⟨⟨by decide, by decide, ?_, by decide, by decide, by decide⟩, ⟨?_, by decide, rfl⟩, ⟨by decide, by decide,
    by decide, by decide, fun h n => ?_⟩, by decide, by decide, by decide +kernel⟩
  · unfold OneOpen; decide
  · unfold OneOpen; decide
  · simp only [assocGet]
    split <;> [skip; split] <;> simp

/-- An outstanding condemn of an empty segment, and of one whose slab is referenced. -/
theorem witness_CondemnIsMadeOfEmptySegment :
    let s (n : Nat) : State := { operating with
      plu := stored .closed n, rcl.outstanding := resetRcl.outstanding.set 0 (some ⟨0, true⟩) }
    ((s 0).rcl.outstanding[(0 : Fin 4)] = some ⟨0, true⟩ ∧ OneOpen (s 0) ∧ AssocWf (s 0).plu.map) ∧
    ((s 0).cfg.mode = .operating ∧ assocGet (s 0).plu.segments 0 = some .closed ∧
      (s 0).plu.map.all (fun e => e.2.count == 0) = true ∧ (s 0).plu.buffered = [] ∧ (s 0).plu.floor = none) ∧
    (s 1).plu.map.all (fun e => e.2.count == 0) = false ∧
    (assocGet (s 1).plu.map 16 = some ⟨some ⟨0, 0⟩, 1⟩ ∧ assocGet (s 1).plu.map 17 = none ∧ (2 : Nat) ≠ 1) ∧
    (let u := { s 0 with rcl := { resetRcl with candidates := [⟨4, none⟩, ⟨8, some 20⟩], eraseFlags := Vector.replicate 4 true } }
     (judgeSegment 0 u).rcl.candidates = [⟨4, none⟩, ⟨0, some 16⟩, ⟨8, some 20⟩]) := by
  refine ⟨⟨by decide, ?_, by decide⟩, by decide, by decide, by decide, by decide +kernel⟩
  unfold OneOpen
  decide

/-- Every slot of a part without streams is as after a reset. -/
theorem operating_slot (i : Fin 64) : operating.slot i = freeSlot := by
  simp [State.slot, operating, State.reset]

/-- A step with each law that the steps keep: a day that completes beside a slab on its way. -/
theorem witness_StepsKeepTheirLaws :
    let s := { running (.program 16 ⟨0, 0⟩) { operating with plu := oneSlab .programming } with
      rtn.inFlight := some (.day 7), pending := [.retentionWriteComplete] }
    (∃ t, step s = .next t) ∧ StoreCanonical s ∧ WriteLaw s ∧ NoticeLaw s ∧ CatalogLaw s ∧ CountsWithin s ∧
    IndexLaw s ∧ BankWork s ∧ CounterSums s ∧ IntakeLaw s ∧ ChunkersRolled s := by
  refine ⟨⟨_, rfl⟩, ?_, ⟨by decide, fun d h => ?_, fun b k h => by cases h⟩, ?_, ?_, ?_, ?_, ?_, fun i => ?_,
    fun i => ?_, fun i => ?_⟩
  · unfold StoreCanonical; decide
  · obtain rfl : 7 = d := by injection h with h; injection h
    decide
  · unfold NoticeLaw; decide
  · unfold CatalogLaw; decide
  · unfold CountsWithin; decide
  · unfold IndexLaw; decide
  · intro b
    match b with
    | 0 => exact ⟨fun g => ⟨fun h => (by cases h), fun ⟨e, h, _⟩ => (by cases h)⟩, fun e h => (by cases h),
        fun j h => (by cases h), fun j h => (by cases h)⟩
    | 1 => exact ⟨fun g => ⟨fun h => (by cases h), fun ⟨e, h, _⟩ => (by cases h)⟩, fun e h => (by cases h),
        fun j h => (by cases h), fun j h => (by cases h)⟩
    | 2 => exact ⟨fun g => ⟨fun h => (by cases h), fun ⟨e, h, _⟩ => (by cases h)⟩, fun e h => (by cases h),
        fun j h => (by cases h), fun j h => (by cases h)⟩
    | 3 => exact ⟨fun g => ⟨fun h => (by cases h), fun ⟨e, h, _⟩ => (by cases h)⟩, fun e h => (by cases h),
        fun j h => (by cases h), fun j h => (by cases h)⟩
  · change SlotCounters (operating.slot i).counters
    rw [operating_slot]
    unfold SlotCounters
    decide
  · change SlotIntake (operating.slot i)
    rw [operating_slot]
    unfold SlotIntake
    decide
  · change Rolled (operating.slot i).chunker
    rw [operating_slot]
    unfold Rolled
    decide

/-- The settings after a reset, and the slots, keep the law of chunk lengths. -/
theorem witness_ChunkLawsAreKept :
    let s := { State.reset with pending := [.powerOn] }
    (∃ t, step s = .next t) ∧ (s.pending = [.powerOn]) ∧
    PhaseLaw s ∧ (∀ i, (s.slot i).state = .free) ∧ ProfileBounds (profileIn s.cfg.inForce 3) ∧
    (s.cfg.staged = s.cfg.inForce ∧ s.cfg.staged[24] ≤ s.cfg.installed) := by
  refine ⟨⟨_, rfl⟩, rfl, ⟨by decide, by decide, by decide, fun i h => (by cases h), by decide⟩, fun i => ?_, ⟨by decide, by decide, by decide, by decide, ⟨16, by decide⟩, ⟨14, by decide⟩⟩,
    by decide⟩
  simp [State.slot, State.reset, freeSlot]

/-- The freeze set, CUSTODY not asserted, nothing that releases in flight, and a hold. -/
theorem witness_RetentionMemoryIsGuarded :
    let s := { operating with rtn.memory := ⟨5, true, [(3, 4)]⟩, pending := [.clearHold (sound 1#16 [0#8, 3#8])] }
    (∃ t, step s = .next t) ∧ WriteLaw s ∧ s.rtn.memory.freeze = true ∧ s.lines.custody = false ∧
    (∀ w, s.rtn.inFlight = some w → w.releases = false) ∧ assocGet s.rtn.memory.holds 3 = some 4 ∧
    (let u := { operating with rtn.inFlight := some .freeze }
     ∃ t, exec .retentionWriteComplete u = .next t ∧ t.rtn.memory ≠ u.rtn.memory) :=
  ⟨⟨_, rfl⟩, ⟨by decide, fun d h => (by cases h), fun b k h => (by cases h)⟩, rfl, rfl, fun w h => (by cases h), rfl,
    _, rfl, by decide⟩

/-- A sequence to keep, and a reset that takes it away. -/
theorem witness_PlacementLawsAreKept :
    let s := running (.program 16 ⟨0, 0⟩) { operating with plu := oneSlab .programming }
    SequenceLaw s ∧ s.plu.nextSeq = some 17 ∧ (∃ t, exec (.custodyChange true) s = .next t ∧ t.plu.nextSeq = some 17) ∧
    (∃ t, exec .powerLoss s = .next t ∧ t.plu.nextSeq = none) :=
  ⟨oneSlab_laws.1, rfl, ⟨_, rfl, rfl⟩, ⟨_, rfl, rfl⟩⟩

/-- A condemn that is made. -/
theorem witness_OnlyEmptySegmentsAreCondemned :
    let s := { operating with plu := stored .closed 0, rcl.outstanding := resetRcl.outstanding.set 0 (some ⟨0, true⟩) }
    OneOpen s ∧ AssocWf s.plu.map ∧ s.cfg.rebuild = none ∧ assocGet s.plu.segments 0 = some .closed ∧
    (∃ t, exec (.condemnTaken 0) s = .next t ∧ assocGet t.plu.segments 0 = some .erasing) ∧
    CondemnLaw State.reset ∧ CondemnLaw { s with cfg.mode := .stopping } := by
  refine ⟨?_, by decide, rfl, rfl, ⟨_, rfl, by decide⟩, ?_, ?_⟩
  · unfold OneOpen
    decide
  all_goals
    unfold CondemnLaw
    decide

/-- A stream that waits for its head's slab, which completes. -/
theorem witness_CommitOnlyWhenDurable :
    let y : Slot := { freeSlot with state := .committing, headSeq := some 16, recipe := 64 }
    let s := running (.program 16 ⟨0, 0⟩) { withStream y with plu := oneSlab .programming }
    (s.slot 0).state = .committing ∧ (s.slot 0).headSeq = some 16 ∧ headDurable { s with plu := s.plu.freeBuffer 16 } 0 = true ∧
    (∃ t, exec (.programComplete 0 .ok) s = .next t) := by
  refine ⟨by decide, by decide, by decide +kernel, _, rfl⟩

/-- A committed recipe of a branch held from before its expiry day. -/
theorem witness_ProtectedRecipeStaysLive :
    let s := { operating with
      rtn.memory := ⟨9, false, [(0, 0)]⟩, rcu := { resetRcu with catalog := [(64, entry .live)], nextRecipe := some 65 }
      rtn.inFlight := some (.day 16) }
    (∃ t, exec .retentionWriteComplete s = .next t ∧ assocGet t.rtn.memory.holds (entry .live).branch = some 0) ∧
    isResetEvent .retentionWriteComplete = false ∧ s.cfg.mode = .operating ∧ s.cfg.rebuild = none ∧
    SettledRecipe 64 (entry .live) s ∧ 0 ≤ (entry .live).expiryDay ∧ PhaseLaw s := by
  refine ⟨⟨_, rfl, by decide⟩, rfl, rfl, rfl, ⟨by decide, rfl, rfl, by decide, fun w h => (by cases h), fun i h => ?_,
    fun k h => ?_⟩, by decide, fun i h => ?_, by decide, by decide, fun i h => (by cases h), by decide⟩
  · have e : (operating.slot i).recipe = 64 := h
    rw [operating_slot] at e
    exact absurd e (by decide)
  · injection h with h
    omega
  · exact absurd (congrArg Slot.phase (operating_slot i)) h

end Sys2Proof.Tests
end

/-! Clear Store Faults (R99): what the clear leaves of the banks, the reply's four bytes bank by bank, and the
order of a failure and the clear. -/

namespace Sys2Proof.Proofs

open Sys2Proof Sys2Proof.Machine

/-! ## The store controller with its flags clear -/

/-- The state after the clear: every fault flag clear and no last fault (R99). -/
def withFlagsCleared (s : State) : State := { s with stc := ⟨s.stc.banks.map clearFlags, none⟩ }

@[simp] theorem bank_withFlagsCleared (b : Fin 4) (s : State) :
    (withFlagsCleared s).bank b = clearFlags (s.bank b) := by
  simp [withFlagsCleared, State.bank]

@[simp] theorem clearFlags_faults (k : Bank) : (clearFlags k).faults = k.faults := rfl

/-- What is laid out bank by bank, in the order of the banks (11.6). -/
theorem flatMap_banks {α : Type} (line : Bank → List α) (s : State) :
    s.stc.banks.toList.flatMap line =
      line (s.bank 0) ++ line (s.bank 1) ++ line (s.bank 2) ++ line (s.bank 3) := by
  have banks_in_order : s.stc.banks.toList = [s.bank 0, s.bank 1, s.bank 2, s.bank 3] :=
    List.ext_getElem (by simp) fun i _ h => by
      match i, h with
      | 0, _ | 1, _ | 2, _ | 3, _ => simp [State.bank]
  simp [banks_in_order]

theorem takeClearStoreFaults_eq (s : State) :
    takeClearStoreFaults s =
      let flags (b : Fin 4) := beBytes 1 (faultFlagsCode (s.bank b).flags)
      (withFlagsCleared s, ⟨.ok, flags 0 ++ flags 1 ++ flags 2 ++ flags 3⟩) := by
  simp only [takeClearStoreFaults, withFlagsCleared, flatMap_banks]

/-! ## The request -/

/-- Clear Store Faults is served in every mode, in one action (R99, R182). -/
theorem exec_clearStoreFaults (tag : BitVec 16) {s : State} (hs : Listening s) :
    exec (.clearStoreFaults (sound tag [])) s =
      answer 0x1C#8 tag (takeClearStoreFaults s).2 (takeClearStoreFaults s).1 :=
  request_taken 0x1C#8 _ (sound tag []) takeClearStoreFaults hs (Nat.zero_le _) rfl

/-! ## A failure beside the clear -/

/-- A recorded failure is no frame: LIF goes on as it stood (R97, R183). -/
theorem listening_recordFault (b : Fin 4) (k : FaultKind) {s : State} (hs : Listening s) :
    Listening (recordFault b k s) := by
  simpa [Listening, State.inReset, linkReady] using hs

/-- The fault flag of a kind (R97). -/
def flagOf (k : FaultKind) (f : PerKind Bool) : Bool :=
  match k with
  | .program => f.program
  | .read => f.read
  | .erase => f.erase

@[simp] theorem flagOf_setFlag (k : FaultKind) (f : PerKind Bool) : flagOf k (setFlag k f) = true := by
  cases k <;> rfl

/-- A failure sets its flag, whatever stood before: one taken after the clear too (R97, R99). -/
theorem flagOf_recordFault (b : Fin 4) (k : FaultKind) (s : State) :
    flagOf k ((recordFault b k s).bank b).flags = true := by
  simp

/-- Settles O35: the request's answer, given on any state that listens, serves the state as it stands and the
state behind a recorded failure. -/
theorem clearStoreFaultsClearsFlags : Obligations.ClearStoreFaultsClearsFlags := by
  intro tag s hs
  have answered {u : State} (hu : Listening u) := exec_clearStoreFaults tag hu
  simp only [takeClearStoreFaults_eq] at answered
  refine ⟨answered hs, fun b k => ⟨answered (listening_recordFault b k hs), ?flagSet, ?countsKept, ?flagSetAfter⟩⟩
  case flagSet => exact flagOf_recordFault b k s
  case countsKept =>
    exact (congrArg Bank.faults (bank_withFlagsCleared b (recordFault b k s))).trans (clearFlags_faults _)
  case flagSetAfter => exact flagOf_recordFault b k (withFlagsCleared s)

end Sys2Proof.Proofs

/-! List Recipes and Read Recipe Head (R120, R121): the numbers that a payload spells, the two layouts of 11.6,
and each request's answer by its checks in their order. -/

namespace Sys2Proof.Proofs

open Sys2Proof Sys2Proof.Machine

/-! ## Fields that fit their bytes -/

/-- A number that fits its bytes is read back where it begins a layout (11.1). -/
theorem field_beBytes_first {n v : Nat} (hv : v < 256 ^ n) (rest : List Byte) :
    field (beBytes n v ++ rest) 0 n = v :=
  (field_beBytes n v rest).trans (Nat.mod_eq_of_lt hv)

/-- A number that fits its bytes and is the whole layout. -/
theorem field_beBytes_whole {n v : Nat} (hv : v < 256 ^ n) : field (beBytes n v) 0 n = v := by
  simpa using field_beBytes_first hv []

/-- A number that fits its bytes is read back behind another. -/
theorem field_beBytes_second (m u : Nat) {n v : Nat} (hv : v < 256 ^ n) :
    field (beBytes m u ++ beBytes n v) m n = v := by
  rw [field_append _ _ _ _ (beBytes_length m u).le, beBytes_length, Nat.sub_self, field_beBytes_whole hv]

/-! ## The layouts of a catalog entry -/

/-- A flag travels as 01h or 00h (11.6). -/
theorem flagByte_eq (b : Bool) : flagByte b = if b then [0x01#8] else [0x00#8] := by
  cases b <;> rfl

/-- The entries that List Recipes asks for, said of numbers and branches alone (R121). -/
theorem matchingRecipes_eq (n sel : Nat) (catalog : Assoc Recipe) :
    matchingRecipes n sel catalog =
      catalog.filter (fun e => n ≤ e.1 ∧ (sel = 65535 ∨ e.2.branch = sel)) :=
  List.filter_congr fun e _ => by simp only [Bool.decide_and, Bool.decide_or, beq_eq_decide]

/-- A summary, byte by byte (R121, 11.6). -/
theorem summaryBytes_eq :
    summaryBytes = fun e => beBytes 4 e.1 ++ beBytes 2 e.2.branch ++ beBytes 1 e.2.state.code ++
      beBytes 2 e.2.expiryDay ++ beBytes 4 e.2.recordCount ++ beBytes 6 e.2.byteTotal ++
      beBytes 1 (closeCode e.2.closeReason) ++ (if e.2.damaged then [0x01#8] else [0x00#8]) :=
  funext fun e => by rw [summaryBytes, flagByte_eq]

/-- The location of a head, byte by byte (11.6). -/
theorem headLocationBytes_eq (l : Option Location) :
    headLocationBytes l = match l with
      | some l => [0x01#8] ++ beBytes 4 l.seq ++ beBytes 4 l.offset
      | none => [0x00#8] ++ beBytes 4 0 ++ beBytes 4 0 := by
  cases l <;> rfl

/-! ## What RCU answers -/

theorem takeListRecipes_notReady (p : List Byte) {s : State} (hm : s.cfg.mode ≠ .operating) :
    takeListRecipes p s = (s, ⟨.notReady, []⟩) := by
  simp [takeListRecipes, plain, hm]

/-- A branch above 1,023 that is not the selector of all branches (R121). -/
theorem takeListRecipes_range {p : List Byte} {s : State} (hm : s.cfg.mode = .operating)
    (hsel : 1023 < field p 4 2) (hall : field p 4 2 ≠ 65535) : takeListRecipes p s = (s, ⟨.range, []⟩) := by
  have above : Config.branchCount ≤ field p 4 2 := hsel
  simp [takeListRecipes, plain, hm, hall, above]

/-- The summaries of the first 32 matching entries, their count, and whether more follow (R121). -/
theorem takeListRecipes_ok {p : List Byte} {s : State} (hm : s.cfg.mode = .operating)
    (hsel : field p 4 2 ≤ 1023 ∨ field p 4 2 = 65535) :
    takeListRecipes p s =
      let found := matchingRecipes (field p 0 4) (field p 4 2) s.rcu.catalog
      (s, ⟨.ok, beBytes 1 (Nat.min found.length 32) ++ flagByte (decide (32 < found.length)) ++
        (found.take 32).flatMap summaryBytes⟩) := by
  have served : ¬ (field p 4 2 ≠ 0xFFFF ∧ Config.branchCount ≤ field p 4 2) := by
    simp only [Config.branchCount]
    omega
  simp only [takeListRecipes, hm, served, ne_eq, not_true_eq_false, if_false, List.length_take]
  rw [Nat.min_comm]

theorem takeReadRecipeHead_notReady (p : List Byte) {s : State} (hm : s.cfg.mode ≠ .operating) :
    takeReadRecipeHead p s = (s, ⟨.notReady, []⟩) := by
  simp [takeReadRecipeHead, plain, hm]

theorem takeReadRecipeHead_gone {p : List Byte} {s : State} (hm : s.cfg.mode = .operating)
    (hr : assocGet s.rcu.catalog (field p 0 4) = none) : takeReadRecipeHead p s = (s, ⟨.gone, []⟩) := by
  simp [takeReadRecipeHead, plain, hm, hr]

theorem takeReadRecipeHead_ok {p : List Byte} {s : State} {r : Recipe} (hm : s.cfg.mode = .operating)
    (hr : assocGet s.rcu.catalog (field p 0 4) = some r) :
    takeReadRecipeHead p s = (s, ⟨.ok, recipeHeadBody (field p 0 4) r⟩) := by
  simp [takeReadRecipeHead, hm, hr]

/-! ## The requests -/

/-- List Recipes is answered by RCU in one action (R119, R182). -/
theorem exec_listRecipes (tag : BitVec 16) (n sel : Nat) {s : State} (hs : Listening s) :
    let taken := takeListRecipes (beBytes 4 n ++ beBytes 2 sel) s
    exec (.listRecipes (sound tag (beBytes 4 n ++ beBytes 2 sel))) s = answer 0x17#8 tag taken.2 taken.1 :=
  request_taken 0x17#8 _ (sound tag (beBytes 4 n ++ beBytes 2 sel))
    (takeListRecipes (beBytes 4 n ++ beBytes 2 sel)) hs (by simp [sound, Config.payloadMax]) rfl

/-- Read Recipe Head is answered by RCU in one action (R119, R182). -/
theorem exec_readRecipeHead (tag : BitVec 16) (n : Nat) {s : State} (hs : Listening s) :
    let taken := takeReadRecipeHead (beBytes 4 n) s
    exec (.readRecipeHead (sound tag (beBytes 4 n))) s = answer 0x18#8 tag taken.2 taken.1 :=
  request_taken 0x18#8 _ (sound tag (beBytes 4 n)) (takeReadRecipeHead (beBytes 4 n)) hs
    (by simp [sound, Config.payloadMax]) rfl

/-- Settles O32: RCU reads back the number and the selector that the payload spells, and answers each check in
its order; what it lists is part of a catalog in rising order. -/
theorem catalogRequestsAnswerEntries : Obligations.CatalogRequestsAnswerEntries := by
  intro tag n sel s hs hn hsel list head found flag
  have number : field (beBytes 4 n ++ beBytes 2 sel) 0 4 = n := field_beBytes_first hn _
  have selector : field (beBytes 4 n ++ beBytes 2 sel) 4 2 = sel := field_beBytes_second 4 n hsel
  have entry : field (beBytes 4 n) 0 4 = n := field_beBytes_whole hn
  have listed {u : State} {r : Reply} (h : takeListRecipes (beBytes 4 n ++ beBytes 2 sel) s = (u, r)) :
      list = answer 0x17#8 tag r u := by simpa only [h] using exec_listRecipes tag n sel hs
  have headed {u : State} {r : Reply} (h : takeReadRecipeHead (beBytes 4 n) s = (u, r)) :
      head = answer 0x18#8 tag r u := by simpa only [h] using exec_readRecipeHead tag n hs
  refine ⟨fun ⟨inOrder, _⟩ => filter_wf inOrder _, ?notReady, fun hm => ⟨?range, ?summaries, ?gone, ?fields⟩⟩
  case notReady =>
    exact fun hm => ⟨listed (takeListRecipes_notReady _ hm), headed (takeReadRecipeHead_notReady _ hm)⟩
  case range =>
    exact fun above notAll => listed (takeListRecipes_range hm (by rwa [selector]) (by rwa [selector]))
  case summaries =>
    intro served
    have answered := listed (takeListRecipes_ok hm (by rwa [selector]))
    simp only [number, selector, matchingRecipes_eq, summaryBytes_eq, flagByte_eq] at answered
    exact answered
  case gone => exact fun absent => headed (takeReadRecipeHead_gone hm (by rwa [entry]))
  case fields =>
    intro r present
    have answered := headed (takeReadRecipeHead_ok (r := r) hm (by rwa [entry]))
    simp only [entry, recipeHeadBody, flagByte_eq, headLocationBytes_eq] at answered
    exact answered

end Sys2Proof.Proofs

/-! The five retention requests (R129, R136, R138, R140): what RTN answers in each case that the order of its
checks leaves, and the reply and the state that a request then has. -/

namespace Sys2Proof.Proofs

open Sys2Proof Sys2Proof.Machine

/-! ## A refusal for want of CUSTODY -/

/-- The refusal is counted, and nothing else changes (R138, R140, R142). -/
theorem refuseCustody_eq (s : State) :
    refuseCustody s =
      ({ s with rtn.counters.custodyRefusals := Nat.min (s.rtn.counters.custodyRefusals + 1) (2 ^ 48 - 1) },
        ⟨.custody, []⟩) := rfl

/-! ## Set Day -/

section SetDay

variable {p : List Byte} {d : Nat} {s : State} (asked : field p 0 4 = d)
include asked

theorem takeSetDay_range (above : 65535 < d) : takeSetDay p s = (s, ⟨.range, []⟩) := by
  simp [takeSetDay, plain, asked, above]

theorem takeSetDay_busy (inRange : d ≤ 65535) (writing : s.rtn.inFlight ≠ none) :
    takeSetDay p s = (s, ⟨.busy, []⟩) := by
  simp [takeSetDay, plain, asked, inRange.not_gt, Option.isSome_iff_ne_none.2 writing]

theorem takeSetDay_backward (inRange : d ≤ 65535) (idle : s.rtn.inFlight = none) (back : d < s.rtn.memory.day) :
    takeSetDay p s = (s, ⟨.backward, []⟩) := by
  simp [takeSetDay, plain, asked, inRange.not_gt, idle, back]

/-- The day in force is answered again, and no write starts (R129). -/
theorem takeSetDay_inForce (inRange : d ≤ 65535) (idle : s.rtn.inFlight = none) (same : d = s.rtn.memory.day) :
    takeSetDay p s = (s, ⟨.ok, [0x00#8] ++ beBytes 2 s.rtn.memory.day⟩) := by
  subst same
  simp [takeSetDay, asked, inRange.not_gt, idle, beBytes]

/-- A later day starts a write of a day at most 7 ahead of the day in force (R129). -/
theorem takeSetDay_forward {w : Nat} (inRange : d ≤ 65535) (idle : s.rtn.inFlight = none)
    (ahead : s.rtn.memory.day < d) (written : dayWritten s.rtn.memory.day d = w) :
    takeSetDay p s = ({ s with rtn.inFlight := some (.day w) }, ⟨.ok, [0x01#8] ++ beBytes 2 w⟩) := by
  simp [takeSetDay, asked, inRange.not_gt, idle, ahead.not_gt, ahead.ne', written, startWrite, beBytes]

end SetDay

/-! ## Set Hold and Clear Hold -/

section Holds

variable {p : List Byte} {b : Nat} {s : State} (asked : field p 0 2 = b)
include asked

theorem takeSetHold_range (outside : Config.branchCount ≤ b) : takeSetHold p s = (s, ⟨.range, []⟩) := by
  simp [takeSetHold, plain, asked, outside]

theorem takeClearHold_range (outside : Config.branchCount ≤ b) : takeClearHold p s = (s, ⟨.range, []⟩) := by
  simp [takeClearHold, plain, asked, outside]

variable (inside : b < Config.branchCount)
include inside

theorem takeSetHold_busy (writing : s.rtn.inFlight ≠ none) : takeSetHold p s = (s, ⟨.busy, []⟩) := by
  simp [takeSetHold, plain, asked, inside.not_ge, Option.isSome_iff_ne_none.2 writing]

theorem takeClearHold_busy (writing : s.rtn.inFlight ≠ none) : takeClearHold p s = (s, ⟨.busy, []⟩) := by
  simp [takeClearHold, plain, asked, inside.not_ge, Option.isSome_iff_ne_none.2 writing]

variable (idle : s.rtn.inFlight = none)
include idle

/-- A branch already held keeps its start day (R136). -/
theorem takeSetHold_held {start : Nat} (held : assocGet s.rtn.memory.holds b = some start) :
    takeSetHold p s = (s, ⟨.ok, [0x00#8] ++ beBytes 2 start⟩) := by
  simp [takeSetHold, asked, inside.not_ge, idle, held, beBytes]

theorem takeSetHold_unheld (unheld : assocGet s.rtn.memory.holds b = none) :
    takeSetHold p s = ({ s with rtn.inFlight := some (.hold b s.rtn.memory.day) },
      ⟨.ok, [0x01#8] ++ beBytes 2 s.rtn.memory.day⟩) := by
  simp [takeSetHold, asked, inside.not_ge, idle, unheld, startWrite, beBytes]

theorem takeClearHold_refused (frozen : s.rtn.memory.freeze = true) (away : s.lines.custody = false) :
    takeClearHold p s = refuseCustody s := by
  simp [takeClearHold, asked, inside.not_ge, idle, frozen, away]

variable (allowed : (s.rtn.memory.freeze && !s.lines.custody) = false)
include allowed

theorem takeClearHold_unheld (unheld : assocGet s.rtn.memory.holds b = none) :
    takeClearHold p s = (s, ⟨.ok, [0x00#8]⟩) := by
  simp [takeClearHold, asked, inside.not_ge, idle, allowed, unheld, beBytes]

theorem takeClearHold_held (held : assocGet s.rtn.memory.holds b ≠ none) :
    takeClearHold p s = ({ s with rtn.inFlight := some (.unhold b) }, ⟨.ok, [0x01#8]⟩) := by
  simp [takeClearHold, asked, inside.not_ge, idle, allowed, Option.isSome_iff_ne_none.2 held, startWrite, beBytes]

end Holds

/-! ## Set Freeze and Clear Freeze -/

section Freeze

variable {s : State}

theorem takeSetFreeze_busy (writing : s.rtn.inFlight ≠ none) : takeSetFreeze s = (s, ⟨.busy, []⟩) := by
  simp [takeSetFreeze, plain, Option.isSome_iff_ne_none.2 writing]

theorem takeClearFreeze_busy (writing : s.rtn.inFlight ≠ none) : takeClearFreeze s = (s, ⟨.busy, []⟩) := by
  simp [takeClearFreeze, plain, Option.isSome_iff_ne_none.2 writing]

variable (idle : s.rtn.inFlight = none)
include idle

theorem takeSetFreeze_frozen (frozen : s.rtn.memory.freeze = true) :
    takeSetFreeze s = (s, ⟨.ok, [0x00#8]⟩) := by
  simp [takeSetFreeze, idle, frozen, beBytes]

theorem takeSetFreeze_thawed (thawed : s.rtn.memory.freeze = false) :
    takeSetFreeze s = ({ s with rtn.inFlight := some .freeze }, ⟨.ok, [0x01#8]⟩) := by
  simp [takeSetFreeze, idle, thawed, startWrite, beBytes]

/-- Without CUSTODY the freeze is not judged (R140). -/
theorem takeClearFreeze_refused (away : s.lines.custody = false) : takeClearFreeze s = refuseCustody s := by
  simp [takeClearFreeze, idle, away]

variable (present : s.lines.custody = true)
include present

theorem takeClearFreeze_thawed (thawed : s.rtn.memory.freeze = false) :
    takeClearFreeze s = (s, ⟨.ok, [0x00#8]⟩) := by
  simp [takeClearFreeze, idle, present, thawed, beBytes]

theorem takeClearFreeze_frozen (frozen : s.rtn.memory.freeze = true) :
    takeClearFreeze s = ({ s with rtn.inFlight := some .unfreeze }, ⟨.ok, [0x01#8]⟩) := by
  simp [takeClearFreeze, idle, present, frozen, startWrite, beBytes]

end Freeze

/-! ## The requests -/

section Requests

variable (tag : BitVec 16) {s t : State} {r : Reply} (hs : Listening s)
include hs

/-- A well-formed request that LIF takes has the reply and the state of its owner (R181, R182). -/
theorem request_answer (kind : Byte) (i : Instr) {f : Frame} {take : State → State × Reply}
    (fits : f.payload.length ≤ Config.payloadMax) (wellFormed : wellFormedRequest kind f = true)
    (taken : take s = (t, r)) : request kind i f take s = answer kind f.tag r t := by
  rw [request_taken kind i f take hs fits wellFormed, taken, answer]

theorem exec_setDay {d : Nat} (taken : takeSetDay (beBytes 4 d) s = (t, r)) :
    exec (.setDay (sound tag (beBytes 4 d))) s = answer 0x11#8 tag r t :=
  request_answer hs 0x11#8 _ (f := sound tag (beBytes 4 d)) (by simp [sound, Config.payloadMax]) rfl taken

theorem exec_setHold {b : Nat} (taken : takeSetHold (beBytes 2 b) s = (t, r)) :
    exec (.setHold (sound tag (beBytes 2 b))) s = answer 0x13#8 tag r t :=
  request_answer hs 0x13#8 _ (f := sound tag (beBytes 2 b)) (by simp [sound, Config.payloadMax]) rfl taken

theorem exec_clearHold {b : Nat} (taken : takeClearHold (beBytes 2 b) s = (t, r)) :
    exec (.clearHold (sound tag (beBytes 2 b))) s = answer 0x14#8 tag r t :=
  request_answer hs 0x14#8 _ (f := sound tag (beBytes 2 b)) (by simp [sound, Config.payloadMax]) rfl taken

theorem exec_setFreeze (taken : takeSetFreeze s = (t, r)) :
    exec (.setFreeze (sound tag [])) s = answer 0x15#8 tag r t :=
  request_answer hs 0x15#8 _ (f := sound tag []) (Nat.zero_le _) rfl taken

theorem exec_clearFreeze (taken : takeClearFreeze s = (t, r)) :
    exec (.clearFreeze (sound tag [])) s = answer 0x16#8 tag r t :=
  request_answer hs 0x16#8 _ (f := sound tag []) (Nat.zero_le _) rfl taken

end Requests

/-- Settles O28: RTN reads back the number that the payload spells, and each case that its checks leave gives
the request its reply and its state. -/
theorem retentionRequestsStartWrites : Obligations.RetentionRequestsStartWrites := by
  refine ⟨?day, ?holds, ?freeze⟩
  case day =>
    intro tag d s hs hd day request
    have asked : field (beBytes 4 d) 0 4 = d := field_beBytes_whole hd
    have taken {t r} (h : takeSetDay (beBytes 4 d) s = (t, r)) : request = answer 0x11#8 tag r t :=
      exec_setDay tag hs h
    refine ⟨fun above => taken (takeSetDay_range asked above),
      fun inRange writing => taken (takeSetDay_busy asked inRange writing),
      fun inRange idle => ⟨fun back => taken (takeSetDay_backward asked inRange idle back),
        fun same => taken (takeSetDay_inForce asked inRange idle same), ?near, ?far⟩⟩
    case near =>
      exact fun ahead near => taken (takeSetDay_forward asked inRange idle ahead (Nat.min_eq_left near))
    case far =>
      exact fun far => taken (takeSetDay_forward asked inRange idle (by omega) (Nat.min_eq_right far.le))
  case holds =>
    intro tag b s hs hb set clear
    have asked : field (beBytes 2 b) 0 2 = b := field_beBytes_whole hb
    have setTaken {t r} (h : takeSetHold (beBytes 2 b) s = (t, r)) : set = answer 0x13#8 tag r t :=
      exec_setHold tag hs h
    have clearTaken {t r} (h : takeClearHold (beBytes 2 b) s = (t, r)) : clear = answer 0x14#8 tag r t :=
      exec_clearHold tag hs h
    refine ⟨fun outside =>
        ⟨setTaken (takeSetHold_range asked outside), clearTaken (takeClearHold_range asked outside)⟩,
      fun inRange writing => ?busy, fun inRange idle => ?own⟩
    all_goals have inside : b < Config.branchCount := Nat.lt_succ_of_le inRange
    case busy =>
      exact ⟨setTaken (takeSetHold_busy asked inside writing), clearTaken (takeClearHold_busy asked inside writing)⟩
    case own =>
      refine ⟨fun _ held => setTaken (takeSetHold_held asked inside idle held),
        fun unheld => setTaken (takeSetHold_unheld asked inside idle unheld),
        fun frozen away => clearTaken
          ((takeClearHold_refused asked inside idle frozen away).trans (refuseCustody_eq s)), fun passed => ?cleared⟩
      have allowed : (s.rtn.memory.freeze && !s.lines.custody) = false := by simpa [imp_iff_not_or] using passed
      exact ⟨fun unheld => clearTaken (takeClearHold_unheld asked inside idle allowed unheld),
        fun held => clearTaken (takeClearHold_held asked inside idle allowed held)⟩
  case freeze =>
    intro tag s hs set clear
    have setTaken {t r} (h : takeSetFreeze s = (t, r)) : set = answer 0x15#8 tag r t := exec_setFreeze tag hs h
    have clearTaken {t r} (h : takeClearFreeze s = (t, r)) : clear = answer 0x16#8 tag r t :=
      exec_clearFreeze tag hs h
    exact ⟨fun writing => ⟨setTaken (takeSetFreeze_busy writing), clearTaken (takeClearFreeze_busy writing)⟩,
      fun idle => ⟨
        fun frozen => setTaken (takeSetFreeze_frozen idle frozen),
        fun thawed => setTaken (takeSetFreeze_thawed idle thawed),
        fun away => clearTaken ((takeClearFreeze_refused idle away).trans (refuseCustody_eq s)),
        fun present => ⟨fun thawed => clearTaken (takeClearFreeze_thawed idle present thawed),
          fun frozen => clearTaken (takeClearFreeze_frozen idle present frozen)⟩⟩⟩

end Sys2Proof.Proofs

/-! Reclaim (R146, R147, R148): what one issue does, what every state of a pass has in common with the state
it began from, which candidate an issued condemn names, and why a bank with a candidate is left without one. -/

namespace Sys2Proof.Proofs

open Sys2Proof Sys2Proof.Machine

/-! ## One issue -/

/-- RCL may issue at all: setting 21 stands at 1, or a credit is free (R146). -/
def MayDraw (automatic : Bool) (r : Rcl) : Prop := automatic = true ∨ r.creditsReserved < r.creditsHeld

/-- The banks that a pass can issue at: no condemn is outstanding, and the erase flag is clear (R148). -/
def BankFree (r : Rcl) (b : Fin 4) : Prop := r.outstanding[b] = none ∧ r.eraseFlags[b] = false

section Issue

variable {automatic : Bool} {r t : Rcl} {c : Candidate}

theorem mayIssue_iff :
    r.mayIssue automatic c = true ↔ BankFree r (bankOf c.segment) ∧ MayDraw automatic r := by
  simp [Rcl.mayIssue, BankFree, MayDraw]

theorem issue_outstanding (automatic : Bool) (r : Rcl) (c : Candidate) (b : Fin 4) :
    (r.issue automatic c).outstanding[b] =
      if b = bankOf c.segment then some ⟨c.segment, !automatic⟩ else r.outstanding[b] := by
  simp [Rcl.issue, Vector.getElem_set, Fin.ext_iff, eq_comm]

theorem issue_outstanding_own (automatic : Bool) (r : Rcl) (c : Candidate) :
    (r.issue automatic c).outstanding[bankOf c.segment] = some ⟨c.segment, !automatic⟩ := by
  rw [issue_outstanding, if_pos rfl]

theorem issue_outstanding_other {b : Fin 4} (other : b ≠ bankOf c.segment) :
    (r.issue automatic c).outstanding[b] = r.outstanding[b] := by
  rw [issue_outstanding, if_neg other]

@[simp] theorem issue_creditsReserved (automatic : Bool) (r : Rcl) (c : Candidate) :
    (r.issue automatic c).creditsReserved = r.creditsReserved + if automatic then 0 else 1 := by
  cases automatic <;> rfl

theorem issue_candidates (automatic : Bool) (r : Rcl) (c : Candidate) :
    (r.issue automatic c).candidates = r.candidates.filter (fun x => x.segment != c.segment) := rfl

theorem bankFree_issue {b : Fin 4} (other : b ≠ bankOf c.segment) :
    BankFree (r.issue automatic c) b ↔ BankFree r b := by
  rw [BankFree, issue_outstanding_other other]
  exact Iff.rfl

end Issue

/-! ## The pass, candidate by candidate -/

section Steps

variable {automatic : Bool} {r : Rcl} {c : Candidate}

theorem passOver_issue (rest : List Candidate) (may : r.mayIssue automatic c = true) :
    r.passOver automatic (c :: rest) = (r.issue automatic c).passOver automatic rest := by
  rw [Rcl.passOver, if_pos may]

theorem passOver_skip (rest : List Candidate) (mayNot : ¬ r.mayIssue automatic c = true) :
    r.passOver automatic (c :: rest) = r.passOver automatic rest := by
  rw [Rcl.passOver, if_neg mayNot]

/-- What every issue keeps, a pass keeps. -/
theorem passOver_keeps {P : Rcl → Prop}
    (keeps : ∀ t c, t.mayIssue automatic c = true → P t → P (t.issue automatic c))
    (cs : List Candidate) (h : P r) : P (r.passOver automatic cs) := by
  induction cs generalizing r with
  | nil => exact h
  | cons c rest ih =>
    by_cases may : r.mayIssue automatic c = true
    · rw [passOver_issue rest may]
      exact ih (keeps r c may h)
    · rw [passOver_skip rest may]
      exact ih h

/-- With setting 21 at 0 and no credit free, a pass issues nothing. -/
theorem passOver_of_not_mayDraw (spent : ¬ MayDraw automatic r) (cs : List Candidate) :
    r.passOver automatic cs = r := by
  induction cs with
  | nil => rfl
  | cons c rest ih => rw [passOver_skip rest fun may => spent (mayIssue_iff.1 may).2, ih]

end Steps

/-! ## What the states of a pass have in common with its first -/

/-- The banks that had no condemn outstanding in `r` and have one in `t`. -/
def issuedBanks (r t : Rcl) : List (Fin 4) :=
  (List.finRange 4).filter (fun b => r.outstanding[b].isNone && t.outstanding[b].isSome)

theorem mem_issuedBanks {r t : Rcl} {b : Fin 4} :
    b ∈ issuedBanks r t ↔ r.outstanding[b] = none ∧ t.outstanding[b] ≠ none := by
  simp [issuedBanks, Option.isSome_iff_ne_none]

theorem issuedBanks_nodup (r t : Rcl) : (issuedBanks r t).Nodup := (List.nodup_finRange 4).filter _

theorem issuedBanks_self (r : Rcl) : issuedBanks r r = [] :=
  List.eq_nil_iff_forall_not_mem.2 fun _ h => (mem_issuedBanks.1 h).2 (mem_issuedBanks.1 h).1

/-- An issue adds its own bank to the issued ones. -/
theorem issuedBanks_issue_perm (automatic : Bool) {r t : Rcl} {c : Candidate}
    (before : r.outstanding[bankOf c.segment] = none) (idle : t.outstanding[bankOf c.segment] = none) :
    (issuedBanks r (t.issue automatic c)).Perm (bankOf c.segment :: issuedBanks r t) := by
  have fresh : bankOf c.segment ∉ issuedBanks r t := fun h => (mem_issuedBanks.1 h).2 idle
  refine (List.perm_ext_iff_of_nodup (issuedBanks_nodup _ _) ((issuedBanks_nodup _ _).cons fresh)).2 fun b => ?_
  by_cases own : b = bankOf c.segment
  · subst own
    simp only [mem_issuedBanks, before, issue_outstanding_own, List.mem_cons, true_or, ne_eq, reduceCtorEq,
      not_false_eq_true, and_self]
  · simp [mem_issuedBanks, issue_outstanding_other own, own]

/-- Was the condemn of a candidate's segment issued between `r` and `t`? -/
def issuedSegment (r t : Rcl) (x : Candidate) : Bool :=
  (issuedBanks r t).any (fun b => t.outstanding[b].any (fun c => c.segment == x.segment))

theorem issuedSegment_issue (automatic : Bool) {r t : Rcl} {c : Candidate}
    (before : r.outstanding[bankOf c.segment] = none) (idle : t.outstanding[bankOf c.segment] = none)
    (x : Candidate) :
    issuedSegment r (t.issue automatic c) x = (c.segment == x.segment || issuedSegment r t x) := by
  have others : ∀ b ∈ issuedBanks r t, (t.issue automatic c).outstanding[b] = t.outstanding[b] := fun b h =>
    issue_outstanding_other fun own => (mem_issuedBanks.1 h).2 (own ▸ idle)
  rw [issuedSegment, (issuedBanks_issue_perm automatic before idle).any_eq, List.any_cons,
    issue_outstanding_own, Option.any_some, issuedSegment]
  congr 1
  rw [Bool.eq_iff_iff, List.any_eq_true, List.any_eq_true]
  exact exists_congr fun b => and_congr_right fun h => by rw [others b h]

/-- The state `t` is reached from `r` by issues of a pass: what R146 and R148 leave as it was, what they take
from the list, and what they reserve. -/
structure IssuedFrom (automatic : Bool) (r t : Rcl) : Prop where
  outstanding : ∀ (b : Fin 4) c, r.outstanding[b] = some c → t.outstanding[b] = some c
  candidates : t.candidates = r.candidates.filter (fun x => !issuedSegment r t x)
  reserved : t.creditsReserved = r.creditsReserved + if automatic then 0 else (issuedBanks r t).length
  covered : r.creditsReserved ≤ r.creditsHeld → t.creditsReserved ≤ r.creditsHeld
  held : t.creditsHeld = r.creditsHeld
  eraseFlags : t.eraseFlags = r.eraseFlags
  counters : t.counters = r.counters

theorem IssuedFrom.refl (automatic : Bool) (r : Rcl) : IssuedFrom automatic r r where
  outstanding _ _ h := h
  candidates := by simp [issuedSegment, issuedBanks_self]
  reserved := by simp [issuedBanks_self]
  covered h := h
  held := rfl
  eraseFlags := rfl
  counters := rfl

theorem IssuedFrom.issue {automatic : Bool} {r t : Rcl} {c : Candidate} (h : IssuedFrom automatic r t)
    (may : t.mayIssue automatic c = true) : IssuedFrom automatic r (t.issue automatic c) := by
  obtain ⟨⟨idle, -⟩, draw⟩ := mayIssue_iff.1 may
  have before : r.outstanding[bankOf c.segment] = none :=
    Option.eq_none_iff_forall_ne_some.2 fun k had => by simp [h.outstanding _ k had] at idle
  refine ⟨fun b k had => ?outstanding, ?candidates, ?reserved, fun covered => ?covered,
    h.held, h.eraseFlags, h.counters⟩
  case outstanding =>
    have other : b ≠ bankOf c.segment := fun own => by simp [own, before] at had
    rw [issue_outstanding_other other, h.outstanding b k had]
  case candidates =>
    rw [issue_candidates, h.candidates, List.filter_filter]
    refine List.filter_congr fun x _ => ?_
    rw [issuedSegment_issue automatic before idle, Bool.not_or, bne, Bool.beq_comm]
  case reserved =>
    have one_more := (issuedBanks_issue_perm automatic before idle).length_eq
    rw [issue_creditsReserved, h.reserved, one_more, List.length_cons]
    split <;> omega
  case covered =>
    have until_now := h.covered covered
    rw [issue_creditsReserved]
    rcases draw with rfl | free
    · simpa using until_now
    · rw [h.held] at free
      split <;> omega

/-- Every pass is a run of issues. -/
theorem passOver_issuedFrom (automatic : Bool) (cs : List Candidate) (r : Rcl) :
    IssuedFrom automatic r (r.passOver automatic cs) :=
  passOver_keeps (fun _ _ may h => h.issue may) cs (.refl automatic r)

/-! ## Which candidate is issued, and which bank is left -/

section Choice

variable {automatic : Bool} {b : Fin 4} {cs : List Candidate} {r : Rcl}

/-- A condemn that a pass issues at a bank names the first listed candidate of that bank, and every free bank
with a candidate ahead of it was issued at as well (R148). -/
theorem exists_first_of_issued {k : Condemn} (before : r.outstanding[b] = none)
    (after : (r.passOver automatic cs).outstanding[b] = some k) :
    BankFree r b ∧ ∃ pre c post, cs = pre ++ c :: post ∧ bankOf c.segment = b ∧ k = ⟨c.segment, !automatic⟩ ∧
      ∀ x ∈ pre, bankOf x.segment ≠ b ∧
        (BankFree r (bankOf x.segment) → (r.passOver automatic cs).outstanding[bankOf x.segment] ≠ none) := by
  induction cs generalizing r with
  | nil => simp [Rcl.passOver, before] at after
  | cons c rest ih =>
    have draw : MayDraw automatic r := by
      by_contra spent
      simp [passOver_of_not_mayDraw spent, before] at after
    by_cases may : r.mayIssue automatic c = true
    · rw [passOver_issue rest may] at after ⊢
      have kept := (passOver_issuedFrom automatic rest (r.issue automatic c)).outstanding _ _
        (issue_outstanding_own automatic r c)
      by_cases own : b = bankOf c.segment
      · subst own
        rw [kept] at after
        exact ⟨(mayIssue_iff.1 may).1, [], c, rest, rfl, rfl, (Option.some.inj after).symm, by simp⟩
      · obtain ⟨free, pre, d, post, rfl, bank, names, ahead⟩ :=
          ih (by rwa [issue_outstanding_other own]) after
        refine ⟨(bankFree_issue own).1 free, c :: pre, d, post, rfl, bank, names, fun x mem => ?_⟩
        by_cases same : bankOf x.segment = bankOf c.segment
        · exact ⟨same ▸ Ne.symm own, fun _ => by simp [same, kept]⟩
        · have later : x ∈ pre := (List.mem_cons.1 mem).resolve_left fun h => same (by rw [h])
          exact (ahead x later).imp_right fun issued free => issued ((bankFree_issue same).2 free)
    · rw [passOver_skip rest may] at after ⊢
      have busy : ¬ BankFree r (bankOf c.segment) := fun free => may (mayIssue_iff.2 ⟨free, draw⟩)
      obtain ⟨free, pre, d, post, rfl, bank, names, ahead⟩ := ih before after
      refine ⟨free, c :: pre, d, post, rfl, bank, names, List.forall_mem_cons.2 ⟨?_, ahead⟩⟩
      exact ⟨fun own => busy (own ▸ free), fun h => absurd h busy⟩

/-- A pass leaves a free bank that has a candidate only when setting 21 stands at 0 and no credit is free
any more (R146, R148). -/
theorem not_mayDraw_of_left (free : BankFree r b) (listed : ∃ x ∈ cs, bankOf x.segment = b)
    (left : (r.passOver automatic cs).outstanding[b] = none) : ¬ MayDraw automatic (r.passOver automatic cs) := by
  induction cs generalizing r with
  | nil => simp at listed
  | cons c rest ih =>
    by_cases own : b = bankOf c.segment
    · have spent : ¬ MayDraw automatic r := fun draw => by
        have may := mayIssue_iff.2 ⟨own ▸ free, draw⟩
        rw [passOver_issue rest may] at left
        simp [own, (passOver_issuedFrom automatic rest _).outstanding _ _
          (issue_outstanding_own automatic r c)] at left
      rwa [passOver_of_not_mayDraw spent]
    · have behind : ∃ x ∈ rest, bankOf x.segment = b :=
        ((List.exists_mem_cons_iff ..).1 listed).resolve_left (Ne.symm own)
      by_cases may : r.mayIssue automatic c = true
      · rw [passOver_issue rest may] at left ⊢
        exact ih ((bankFree_issue own).2 free) behind left
      · rw [passOver_skip rest may] at left ⊢
        exact ih free behind left

/-- The first listed candidate of a bank is the one that its condemn names. -/
theorem find?_of_issued {k : Condemn} (before : r.outstanding[b] = none)
    (after : (r.passOver automatic cs).outstanding[b] = some k) :
    BankFree r b ∧ k.reserved = !automatic ∧
      (cs.find? (fun x => bankOf x.segment = b)).map (·.segment) = some k.segment := by
  obtain ⟨free, pre, c, post, rfl, bank, rfl, ahead⟩ := exists_first_of_issued before after
  have first : (pre ++ c :: post).find? (fun x => bankOf x.segment = b) = some c :=
    List.find?_eq_some_iff_append.2
      ⟨by simpa using bank, pre, post, rfl, fun x mem => by simpa using (ahead x mem).1⟩
  exact ⟨free, rfl, by rw [first]; rfl⟩

/-- Of a bank issued at and a free bank left, the first candidate listed is of the bank issued at. -/
theorem find?_of_left {b' : Fin 4} (free : BankFree r b)
    (left : (r.passOver automatic cs).outstanding[b] = none)
    (issued : b' ∈ issuedBanks r (r.passOver automatic cs)) :
    (cs.find? (fun x => bankOf x.segment = b ∨ bankOf x.segment = b')).map (fun x => bankOf x.segment) =
      some b' := by
  obtain ⟨before, after⟩ := mem_issuedBanks.1 issued
  obtain ⟨k, after⟩ := Option.ne_none_iff_exists'.1 after
  obtain ⟨-, pre, c, post, split, rfl, -, ahead⟩ := exists_first_of_issued before after
  have first : cs.find? (fun x => bankOf x.segment = b ∨ bankOf x.segment = bankOf c.segment) = some c := by
    refine List.find?_eq_some_iff_append.2 ⟨by simp, pre, post, split, fun x mem => ?_⟩
    obtain ⟨other, issued⟩ := ahead x mem
    have notLeft : bankOf x.segment ≠ b := fun own => issued (own ▸ free) (own ▸ left)
    simp [other, notLeft]
  rw [first, Option.map_some]

end Choice

/-! ## How many condemns a pass issues -/

/-- The banks that a pass can issue at and that have a listed candidate (R148). -/
def eligibleBank (r : Rcl) (b : Fin 4) : Bool :=
  r.outstanding[b].isNone && !r.eraseFlags[b] && r.candidates.any (fun x => bankOf x.segment = b)

theorem eligibleBank_iff {r : Rcl} {b : Fin 4} :
    eligibleBank r b = true ↔ BankFree r b ∧ ∃ x ∈ r.candidates, bankOf x.segment = b := by
  simp [eligibleBank, BankFree]

section Count

variable {automatic : Bool} {r : Rcl}

/-- A pass issues at eligible banks only. -/
theorem eligibleBank_of_issued {b : Fin 4}
    (issued : b ∈ issuedBanks r (r.passOver automatic r.candidates)) : eligibleBank r b = true := by
  obtain ⟨before, after⟩ := mem_issuedBanks.1 issued
  obtain ⟨k, after⟩ := Option.ne_none_iff_exists'.1 after
  obtain ⟨free, pre, c, post, split, bank, -⟩ := exists_first_of_issued before after
  exact eligibleBank_iff.2 ⟨free, c, by simp [split], bank⟩

/-- With setting 21 at 0, a pass issues no more condemns than there are free credits (R146). -/
theorem issuedBanks_length_le (r : Rcl) (cs : List Candidate) :
    (issuedBanks r (r.passOver false cs)).length ≤ r.creditsHeld - r.creditsReserved := by
  have pass := passOver_issuedFrom false cs r
  by_cases draw : MayDraw false r
  · have free : r.creditsReserved < r.creditsHeld := draw.resolve_left Bool.false_ne_true
    have covered := pass.covered free.le
    have reserved := pass.reserved
    simp only [Bool.false_eq_true, if_false] at reserved
    omega
  · simp [passOver_of_not_mayDraw draw, issuedBanks_self]

/-- With setting 21 at 0, a pass issues at as many eligible banks as there are free credits (R146, R148). -/
theorem issuedBanks_length (r : Rcl) :
    (issuedBanks r (r.passOver false r.candidates)).length =
      Nat.min (r.creditsHeld - r.creditsReserved) ((List.finRange 4).filter (eligibleBank r)).length := by
  have pass := passOver_issuedFrom false r.candidates r
  have credits := issuedBanks_length_le r r.candidates
  have banks : (issuedBanks r (r.passOver false r.candidates)).length ≤ _ :=
    ((issuedBanks_nodup _ _).subperm fun b issued =>
      List.mem_filter.2 ⟨List.mem_finRange b, eligibleBank_of_issued issued⟩).length_le
  refine le_antisymm (le_min credits banks) (min_le_iff.2 ?_)
  by_cases all : ∀ b, eligibleBank r b = true → b ∈ issuedBanks r (r.passOver false r.candidates)
  · exact .inr (((List.nodup_finRange 4).filter _).subperm fun b h => all b (List.mem_filter.1 h).2).length_le
  · push Not at all
    obtain ⟨b, able, missed⟩ := all
    obtain ⟨free, listed⟩ := eligibleBank_iff.1 able
    have left : (r.passOver false r.candidates).outstanding[b] = none := by
      by_contra after
      exact missed (mem_issuedBanks.2 ⟨free.1, after⟩)
    have spent : ¬ (r.passOver false r.candidates).creditsReserved < (r.passOver false r.candidates).creditsHeld :=
      fun draw => not_mayDraw_of_left free listed left (.inr draw)
    have reserved := pass.reserved
    simp only [Bool.false_eq_true, if_false] at reserved
    rw [pass.held] at spent
    exact .inl (by omega)

end Count

/-! ## The request -/

theorem reclaimPass_operating {s : State} (hm : s.cfg.mode = .operating) :
    reclaimPass s = { s with rcl := s.rcl.passOver (s.cfg.inForce[21] = 1) s.rcl.candidates } := by
  rw [reclaimPass, if_pos hm]
  rfl

/-- The banks with a condemn outstanding, counted bank by bank (R147). -/
theorem outstanding_count (r : Rcl) :
    (r.outstanding.toList.filter (·.isSome)).length =
      ((List.finRange 4).filter (fun b => r.outstanding[b].isSome)).length := by
  have in_order : r.outstanding.toList = (List.finRange 4).map (fun b => r.outstanding[b]) :=
    List.ext_getElem (by simp) fun i _ _ => by simp
  rw [in_order, List.filter_map, List.length_map]
  rfl

theorem takeReclaim_notReady (p : List Byte) {s : State} (hm : s.cfg.mode ≠ .operating) :
    takeReclaim p s = (s, ⟨.notReady, []⟩) := by
  simp [takeReclaim, plain, hm]

theorem takeReclaim_ok {p : List Byte} {n : Nat} {s : State} (asked : field p 0 1 = n)
    (hm : s.cfg.mode = .operating) :
    let held := Nat.min (s.rcl.creditsHeld + if n = 0 then 256 else n) 65535
    let r := ({ s.rcl with creditsHeld := held }).passOver (s.cfg.inForce[21] = 1) s.rcl.candidates
    takeReclaim p s = ({ s with rcl := r },
      ⟨.ok, beBytes 2 held ++ beBytes 1 r.creditsReserved ++ beBytes 2 r.candidates.length ++
        beBytes 1 ((List.finRange 4).filter (fun b => r.outstanding[b].isSome)).length⟩) := by
  intro held r
  have kept : r.creditsHeld = held := (passOver_issuedFrom _ _ _).held
  have passed : reclaimPass { s with rcl.creditsHeld := held } = { s with rcl := r } := reclaimPass_operating hm
  have counted : Nat.min (s.rcl.creditsHeld + countOf256 n) Config.creditMax = held := rfl
  simp only [takeReclaim, if_neg (not_not.2 hm), asked, counted, passed, reclaimBody, outstanding_count, kept]

theorem exec_reclaim (tag : BitVec 16) {n : Nat} {s t : State} {r : Reply} (hs : Listening s)
    (taken : takeReclaim (beBytes 1 n) s = (t, r)) :
    exec (.reclaim (sound tag (beBytes 1 n))) s = answer 0x1D#8 tag r t :=
  request_answer hs 0x1D#8 _ (f := sound tag (beBytes 1 n)) (by simp [sound, Config.payloadMax]) rfl taken

/-- Settles O36: the request by RCL's own reply; the pass by what its states have in common with its first, by
the first candidate of each bank issued at, and by the credits that ran out where a bank was left. -/
theorem reclaimAddsCreditsAndPasses : Obligations.ReclaimAddsCreditsAndPasses := by
  refine ⟨fun tag n s hs hn => ?request, fun automatic r => ?pass⟩
  case request =>
    have asked : field (beBytes 1 n) 0 1 = n := field_beBytes_whole hn
    exact ⟨fun hm => exec_reclaim tag hs (takeReclaim_notReady _ hm),
      fun hm => exec_reclaim tag hs (takeReclaim_ok asked hm)⟩
  case pass =>
    have pass := passOver_issuedFrom automatic r.candidates r
    refine ⟨pass.outstanding, ?first, pass.candidates, pass.reserved, pass.covered, ?automatic, ?credits,
      pass.held, pass.eraseFlags, pass.counters⟩
    case first =>
      intro b k before after
      obtain ⟨⟨-, flag⟩, reserved, first⟩ := find?_of_issued before after
      exact ⟨flag, reserved, first⟩
    case automatic =>
      exact fun b on idle flag listed left => not_mayDraw_of_left ⟨idle, flag⟩ listed left (.inl on)
    case credits =>
      rintro eligible rfl
      exact ⟨issuedBanks_length r, fun b b' able left issued =>
        find?_of_left (eligibleBank_iff.1 able).1 left issued⟩

end Sys2Proof.Proofs

/-! Set Notice Mask (R172): the enables that a mask's number spells, the reply for the pairs removed, and a raise
of a kind turned off on each side of the request. -/

namespace Sys2Proof.Proofs

open Sys2Proof Sys2Proof.Machine

/-! ## The mask -/

/-- A kind's place in the mask is one of the eleven (R168, 11.6). -/
theorem rank_le_eleven (k : NoticeKind) : k.rank ≤ 11 := by
  cases k <;> decide

/-- The enable of a kind is the bit at its rank in the number that the request carries (11.6). -/
@[simp] theorem kindEnabled_ofNat (v : Nat) (k : NoticeKind) :
    kindEnabled (BitVec.ofNat 11 v) k = v.testBit (k.rank - 1) := by
  have place : k.rank - 1 < 11 := by
    have := rank_le_eleven k
    omega
  rw [kindEnabled, BitVec.getLsbD_ofNat, decide_eq_true place, Bool.true_and]

/-- The state with a mask in force: only the pairs of its kinds stay (R172). -/
def withNoticeMask (v : Nat) (s : State) : State :=
  { s with rpu := { s.rpu with
    mask := BitVec.ofNat 11 v
    notices := s.rpu.notices.filter (fun n => v.testBit (n.kind.rank - 1)) } }

/-- A pair of a kind turned off is gone, whatever its subject (R172). -/
theorem notMem_withNoticeMask {v : Nat} {n : Notice} (off : v.testBit (n.kind.rank - 1) = false) (s : State) :
    n ∉ (withNoticeMask v s).rpu.notices := by
  simp [withNoticeMask, off]

/-! ## A raise beside the mask -/

/-- A raise of a kind that is off is lost (R169). -/
theorem raise_disabled {n : Notice} {s : State} (off : kindEnabled s.rpu.mask n.kind = false) : raise n s = s := by
  rcases raise_cases n s with unchanged | ⟨on, -, -⟩
  · exact unchanged
  · exact absurd on (by simp [off])

/-- A raise is no frame from the host: LIF goes on as it stood (R171, R183). -/
theorem listening_raise (n : Notice) {s : State} (hs : Listening s) : Listening (raise n s) := by
  rcases raise_cases n s with e | ⟨-, -, e⟩ <;> rw [e]
  · exact hs
  · exact hs

/-! ## The request -/

theorem takeSetNoticeMask_range {p : List Byte} {v : Nat} (asked : field p 0 2 = v) (above : 2048 ≤ v) (s : State) :
    takeSetNoticeMask p s = (s, ⟨.range, []⟩) := by
  simp [takeSetNoticeMask, plain, asked, above]

/-- The pairs removed are those whose kind is off: the pairs that were pending less the pairs that stay. -/
theorem takeSetNoticeMask_ok {p : List Byte} {v : Nat} (asked : field p 0 2 = v) (inRange : v < 2048) (s : State) :
    takeSetNoticeMask p s = (withNoticeMask v s,
      ⟨.ok, beBytes 2 v ++
        beBytes 1 (s.rpu.notices.filter (fun n => !v.testBit (n.kind.rank - 1))).length⟩) := by
  have counted := List.length_eq_length_filter_add (l := s.rpu.notices) (fun n => v.testBit (n.kind.rank - 1))
  simp only [takeSetNoticeMask, asked, if_neg (Nat.not_le.2 inRange), kindEnabled_ofNat, withNoticeMask, counted,
    Nat.add_sub_cancel_left]

theorem exec_setNoticeMask (tag : BitVec 16) {v : Nat} {s t : State} {r : Reply} (hs : Listening s)
    (taken : takeSetNoticeMask (beBytes 2 v) s = (t, r)) :
    exec (.setNoticeMask (sound tag (beBytes 2 v))) s = answer 0x0E#8 tag r t :=
  request_answer hs 0x0E#8 _ (f := sound tag (beBytes 2 v)) (by simp [sound, Config.payloadMax]) rfl taken

/-- The Report Unit behind a request answered: as its owner left it (R182). -/
theorem answer_rpu {kind : Byte} {tag : BitVec 16} {r : Reply} {s t : State}
    (answered : answer kind tag r s = .next t) : t.rpu = s.rpu := by
  rw [act_eq_next.1 answered, endAction_rpu, sendReply]

/-- Settles O25: one answer for every state that listens, so also behind the raise; and the mask that it leaves
in force loses the raise that comes after it. -/
theorem setNoticeMaskRemovesMaskedPairs : Obligations.SetNoticeMaskRemovesMaskedPairs := by
  intro tag v s hs hv
  have asked : field (beBytes 2 v) 0 2 = v := field_beBytes_whole hv
  have taken {u : State} (hu : Listening u) (inRange : v < 2048) :=
    exec_setNoticeMask tag hu (takeSetNoticeMask_ok asked inRange u)
  have leaves {u t : State} (hu : Listening u) (inRange : v < 2048)
      (h : exec (.setNoticeMask (sound tag (beBytes 2 v))) u = .next t) : t.rpu = (withNoticeMask v u).rpu :=
    answer_rpu ((taken hu inRange).symm.trans h)
  refine ⟨taken hs, fun above => exec_setNoticeMask tag hs (takeSetNoticeMask_range asked above s),
    fun n inRange off => ⟨fun t h => ?raisedBefore, fun t h => ⟨?raisedAfter, ?removed⟩⟩⟩
  case raisedBefore =>
    rw [leaves (listening_raise n hs) inRange h]
    exact notMem_withNoticeMask off (raise n s)
  case raisedAfter =>
    apply raise_disabled
    rw [leaves hs inRange h, withNoticeMask, kindEnabled_ofNat, off]
  case removed =>
    rw [leaves hs inRange h]
    exact notMem_withNoticeMask off s

end Sys2Proof.Proofs

/-! What the shared operations leave of the Settings Unit, said once for each, in the order of the model: a lemma
`_cfg` for an operation that leaves it as it stood, a lemma `_installed` for one that changes its mode, its settings
or its rebuild and leaves the installed segment count (R187). -/

namespace Sys2Proof.Proofs

open Sys2Proof Sys2Proof.Machine

/-! ## Frames, pairs and folds -/

/-- What a run of steps reads off the state stands still when it does so in every step. -/
theorem foldl_keeps {α β : Type} (look : State → β) {f : State → α → State}
    (keeps : ∀ t x, look (f t x) = look t) (l : List α) (s : State) : look (l.foldl f s) = look s :=
  List.foldlRecOn l f (motive := fun t => look t = look s) rfl fun t h x _ => (keeps t x).trans h

/-- What is said of the state that an operation answers, said of that state by its name. -/
theorem cfg_of_answer {α : Type} {p : α × State} {a : α} {t : State} {c : Cfg} (answered : p = (a, t))
    (kept : p.2.cfg = c) : t.cfg = c := by
  rwa [answered] at kept

theorem cfg_of_sameButBanks {s t : State} (h : SameButBanks s t) : t.cfg = s.cfg := by
  obtain ⟨_, _, rfl⟩ := h
  rfl

theorem cfg_of_sameButReclaim {s t : State} (h : SameButReclaim s t) : t.cfg = s.cfg := by
  obtain ⟨_, rfl⟩ := h
  rfl

/-! ## Banks and reclaim -/

@[simp] theorem chooseNext_cfg (b : Fin 4) (s : State) : (chooseNext b s).cfg = s.cfg :=
  cfg_of_sameButBanks (chooseNext_frame b s)

@[simp] theorem queueRead_cfg (j : ReadJob) (s : State) : (queueRead j s).cfg = s.cfg :=
  cfg_of_sameButBanks (queueRead_frame j s)

@[simp] theorem queueProgram_cfg (q : Nat) (s : State) : (queueProgram q s).cfg = s.cfg :=
  cfg_of_sameButBanks (queueProgram_frame q s)

@[simp] theorem finishBank_cfg (b : Fin 4) (s : State) : (finishBank b s).cfg = s.cfg :=
  cfg_of_sameButBanks (finishBank_frame b s)

@[simp] theorem slabRead_cfg (who : Requester) (seq off len : Nat) (s : State) :
    (slabRead who seq off len s).2.cfg = s.cfg :=
  cfg_of_sameButBanks (slabRead_frame who seq off len s).1

@[simp] theorem giveErase_cfg (b : Fin 4) (s : State) : (giveErase b s).cfg = s.cfg := by
  unfold giveErase
  split
  · split
    · dsimp only
      split <;> simp
    · rfl
  · rfl

@[simp] theorem reclaimPass_cfg (s : State) : (reclaimPass s).cfg = s.cfg :=
  cfg_of_sameButReclaim (reclaimPass_frame s)

@[simp] theorem judgeSegment_cfg (g : Nat) (s : State) : (judgeSegment g s).cfg = s.cfg :=
  cfg_of_sameButReclaim (judgeSegment_frame g s)

@[simp] theorem condemnResult_cfg (b : Fin 4) (c : Condemn) (made : Bool) (s : State) :
    (condemnResult b c made s).cfg = s.cfg :=
  cfg_of_sameButReclaim (condemnResult_frame b c made s)

@[simp] theorem refuseOutstanding_cfg (s : State) : (refuseOutstanding s).cfg = s.cfg :=
  cfg_of_sameButReclaim (refuseOutstanding_frame s)

@[simp] theorem reclaimOnEntry_cfg (s : State) : (reclaimOnEntry s).cfg = s.cfg :=
  cfg_of_sameButReclaim (reclaimOnEntry_frame s)

@[simp] theorem giveBack_cfg (q : Nat) (s : State) : (giveBack q s).cfg = s.cfg := by
  obtain ⟨_, changed⟩ := giveBack_frame q s
  rw [changed]

@[simp] theorem giveBackAll_cfg (qs : List Nat) (s : State) : (giveBackAll qs s).cfg = s.cfg :=
  foldl_keeps State.cfg (fun t q => giveBack_cfg q t) qs s

@[simp] theorem makeCondemn_cfg (g : Nat) (s : State) : (makeCondemn g s).cfg = s.cfg := rfl

@[simp] theorem eraseReport_cfg (b : Fin 4) (result : OpResult) (s : State) :
    (eraseReport b result s).cfg = s.cfg := by
  simp [eraseReport, apply_ite State.cfg]

/-! ## Placement -/

@[simp] theorem leaveFilling_cfg (s : State) : (leaveFilling s).cfg = s.cfg := by
  unfold leaveFilling
  split
  · rfl
  · dsimp only
    split <;> simp

@[simp] theorem noteLeftFree_cfg (s : State) : (noteLeftFree s).cfg = s.cfg := by
  unfold noteLeftFree
  split <;> simp

@[simp] theorem advance_cfg (q : Nat) (p : Place) (i : Fin 2) (s : State) : (advance q p i s).cfg = s.cfg := by
  unfold advance
  dsimp only
  split
  · simp
  · split <;> simp

@[simp] theorem tryAdvance_cfg (s : State) : (tryAdvance s).2.cfg = s.cfg := by
  unfold tryAdvance
  split
  · split
    · split <;> simp
    · simp
  · simp

@[simp] theorem placeAfterAdvance_cfg (kind : ObjectKind) (bytes : List Byte) (s : State) :
    (placeAfterAdvance kind bytes s).2.cfg = s.cfg := by
  have advanced := tryAdvance_cfg s
  unfold placeAfterAdvance
  split
  next t refused => exact cfg_of_answer refused advanced
  next t taken =>
    have kept : t.cfg = s.cfg := cfg_of_answer taken advanced
    split <;> exact kept

@[simp] theorem placeObject_cfg (kind : ObjectKind) (bytes : List Byte) (s : State) :
    (placeObject kind bytes s).2.cfg = s.cfg := by
  unfold placeObject
  split
  · split
    · rfl
    · exact placeAfterAdvance_cfg kind bytes s
  · exact placeAfterAdvance_cfg kind bytes s

@[simp] theorem giveSegment_cfg (g : Nat) (qs : List Nat) (s : State) : (giveSegment g qs s).cfg = s.cfg := by
  have queued (rest : List Nat) (t : State) : (rest.foldl (fun t q => queueProgram q t) t).cfg = t.cfg :=
    foldl_keeps State.cfg (fun t q => queueProgram_cfg q t) rest t
  unfold giveSegment
  dsimp only
  split <;> simp [queued]

@[simp] theorem retarget_cfg (qs : List Nat) (s : State) : (retarget qs s).cfg = s.cfg := by
  unfold retarget
  split <;> simp

@[simp] theorem serveWaitList_cfg (g : Nat) (s : State) : (serveWaitList g s).cfg = s.cfg := by
  unfold serveWaitList
  split <;> simp

@[simp] theorem programFailed_cfg (b : Fin 4) (q : Nat) (p : Place) (s : State) :
    (programFailed b q p s).cfg = s.cfg := by
  simp [programFailed]

/-- STOPPING ends in STANDBY: of the Settings Unit only the mode changes (R192). -/
@[simp] theorem stoppingCheck_installed (s : State) : (stoppingCheck s).cfg.installed = s.cfg.installed := by
  unfold stoppingCheck
  split
  · dsimp only
    split <;> simp [discardWaitList]
  · rfl

/-! ## Release walks and retention -/

@[simp] theorem leakBlock_cfg (r : Recipe) (k : Nat) (s : State) : (leakBlock r k s).cfg = s.cfg := rfl

@[simp] theorem walkBlockData_cfg (n : Nat) (r : Recipe) (k : Nat) (bs : List Byte) (s : State) :
    (walkBlockData n r k bs s).cfg = s.cfg := by
  unfold walkBlockData
  split <;> simp

@[simp] theorem walkBlockFailed_cfg (r : Recipe) (k : Nat) (s : State) : (walkBlockFailed r k s).cfg = s.cfg := by
  simp [walkBlockFailed]

@[simp] theorem walkFrom_cfg (n : Nat) (r : Recipe) (k : Nat) (blocks : List Location) (s : State) :
    (walkFrom n r k blocks s).2.cfg = s.cfg := by
  induction blocks generalizing k s with
  | nil => rfl
  | cons loc rest ih =>
    have read := slabRead_cfg .walk loc.seq loc.offset (blockLength (recordsInBlock r k)) s
    unfold walkFrom
    split
    next t absent => rw [ih, leakBlock_cfg, cfg_of_answer absent read]
    next bs t copied => rw [ih, walkBlockData_cfg, cfg_of_answer copied read]
    next t queued =>
      show t.cfg = s.cfg
      exact cfg_of_answer queued read

@[simp] theorem walkEnd_cfg (n : Nat) (r : Recipe) (s : State) : (walkEnd n r s).cfg = s.cfg := by
  unfold walkEnd
  dsimp only
  split <;> simp

@[simp] theorem noteReleasesIdle_cfg (s : State) : (noteReleasesIdle s).cfg = s.cfg := by
  unfold noteReleasesIdle
  split <;> simp

@[simp] theorem takeReleases_cfg (n : Nat) (s : State) : (takeReleases n s).cfg = s.cfg := by
  induction n generalizing s with
  | zero => rfl
  | succ n ih =>
    unfold takeReleases
    split
    · rfl
    next number rest _ =>
      dsimp only
      split
      · exact ih _
      next r _ =>
        split
        · simp [ih]
        · split
          next t waits => exact cfg_of_answer waits (walkFrom_cfg ..)
          next t ended =>
            rw [ih, noteReleasesIdle_cfg, walkEnd_cfg]
            exact cfg_of_answer ended (walkFrom_cfg ..)

@[simp] theorem startWalks_cfg (s : State) : (startWalks s).cfg = s.cfg := by
  unfold startWalks
  split <;> simp

@[simp] theorem queueRelease_cfg (job : Job) (numbers : List Nat) (s : State) :
    (queueRelease job numbers s).cfg = s.cfg := by
  unfold queueRelease
  rw [startWalks_cfg]
  refine foldl_keeps State.cfg (fun t number => ?_) numbers s
  split <;> rfl

@[simp] theorem walkReadDone_cfg (result : OpResult) (bs : List Byte) (s : State) :
    (walkReadDone result bs s).cfg = s.cfg := by
  unfold walkReadDone
  split
  · rfl
  next w _ =>
    split
    · rfl
    next r _ =>
      dsimp only
      split
      next u waits =>
        rw [cfg_of_answer waits (walkFrom_cfg ..)]
        cases result <;> simp
      next u ended =>
        rw [startWalks_cfg, noteReleasesIdle_cfg, walkEnd_cfg, cfg_of_answer ended (walkFrom_cfg ..)]
        cases result <;> simp

@[simp] theorem expiryScan_cfg (branch : Option Nat) (s : State) : (expiryScan branch s).cfg = s.cfg := by
  simp [expiryScan]

@[simp] theorem reportWrite_cfg (s : State) : (reportWrite s).cfg = s.cfg := by
  simp [reportWrite]

@[simp] theorem followUp_cfg (w : RetentionWrite) (s : State) : (followUp w s).cfg = s.cfg := by
  cases w <;> dsimp only [followUp] <;> split <;> simp

/-! ## Streams -/

@[simp] theorem dgeChoose_cfg (s : State) : (dgeChoose s).cfg = s.cfg := by
  unfold dgeChoose
  split
  · rfl
  · split <;> rfl

@[simp] theorem cutChunk_cfg (i : Fin 64) (s : State) : (cutChunk i s).cfg = s.cfg := by
  simp [cutChunk]

@[simp] theorem defer_cfg (i : Fin 64) (item : Item) (s : State) : (defer i item s).cfg = s.cfg := by
  simp [defer]

@[simp] theorem resumeScan_cfg (i : Fin 64) (s : State) : (resumeScan i s).cfg = s.cfg := rfl

@[simp] theorem placeBlock_cfg (i : Fin 64) (s : State) : (placeBlock i s).2.cfg = s.cfg := by
  unfold placeBlock
  dsimp only
  split
  next t refused => exact cfg_of_answer refused (placeObject_cfg ..)
  next loc t placed =>
    have kept : t.cfg = s.cfg := cfg_of_answer placed (placeObject_cfg ..)
    split <;> exact kept

@[simp] theorem placeHead_cfg (i : Fin 64) (s : State) : (placeHead i s).cfg = s.cfg := by
  unfold placeHead
  dsimp only
  split
  · rfl
  · split
    next t refused => rw [defer_cfg, cfg_of_answer refused (placeObject_cfg ..), State.withRecipe_cfg]
    next loc t placed =>
      rw [State.withSlot_cfg, State.withRecipe_cfg, leaveFilling_cfg, cfg_of_answer placed (placeObject_cfg ..),
        State.withRecipe_cfg]

@[simp] theorem finalPlacements_cfg (i : Fin 64) (s : State) : (finalPlacements i s).cfg = s.cfg := by
  unfold finalPlacements
  split
  · simp
  · split
    next t refused => rw [defer_cfg, cfg_of_answer refused (placeBlock_cfg ..)]
    next t placed => rw [placeHead_cfg, cfg_of_answer placed (placeBlock_cfg ..)]

@[simp] theorem drainStep_cfg (i : Fin 64) (s : State) : (drainStep i s).cfg = s.cfg := by
  unfold drainStep
  dsimp only
  split
  · split <;> simp
  · rfl

@[simp] theorem blockStep_cfg (i : Fin 64) (s : State) : (blockStep i s).cfg = s.cfg := by
  unfold blockStep
  split
  next t refused => rw [defer_cfg, cfg_of_answer refused (placeBlock_cfg ..)]
  next t placed => rw [drainStep_cfg, resumeScan_cfg, cfg_of_answer placed (placeBlock_cfg ..)]

@[simp] theorem formRecord_cfg (i : Fin 64) (loc : Location) (fate : ChunkFate) (s : State) :
    (formRecord i loc fate s).cfg = s.cfg := by
  unfold formRecord
  dsimp only
  split
  · split <;> split <;> simp
  · rfl

@[simp] theorem resubmit_cfg (i : Fin 64) (s : State) : (resubmit i s).cfg = s.cfg := by
  unfold resubmit
  dsimp only
  split
  · split <;> rfl
  · simp
  · simp
  · rfl

@[simp] theorem placementAvailable_cfg (s : State) : (placementAvailable s).cfg = s.cfg :=
  foldl_keeps State.cfg (fun t i => resubmit_cfg i t) _ s

@[simp] theorem commitSlot_cfg (i : Fin 64) (s : State) : (commitSlot i s).cfg = s.cfg := by
  unfold commitSlot
  dsimp only
  split
  · simp
  · split <;> simp

@[simp] theorem commitDurable_cfg (s : State) : (commitDurable s).cfg = s.cfg :=
  foldl_keeps State.cfg (fun t i => commitSlot_cfg i t) _ s

@[simp] theorem retireSlot_cfg (i : Fin 64) (s : State) : (retireSlot i s).cfg = s.cfg := rfl

@[simp] theorem dropVerify_cfg (i : Fin 64) (s : State) : (dropVerify i s).cfg = s.cfg := by
  unfold dropVerify
  split <;> simp

@[simp] theorem abortSlot_cfg (i : Fin 64) (s : State) : (abortSlot i s).cfg = s.cfg := by
  unfold abortSlot
  simp only [dgeChoose_cfg]
  split <;> split <;> simp

/-! ## The index -/

@[simp] theorem takeHit_cfg (l : Lookup) (e : IndexEntry) (s : State) : (takeHit l e s).cfg = s.cfg := by
  unfold takeHit
  dsimp only
  split <;> simp

@[simp] theorem insertEntry_cfg (e : IndexEntry) (s : State) : (insertEntry e s).2.cfg = s.cfg := by
  unfold insertEntry
  dsimp only
  split <;> rfl

@[simp] theorem takeMiss_cfg (l : Lookup) (stale : Option Nat) (s : State) : (takeMiss l stale s).cfg = s.cfg := by
  unfold takeMiss
  dsimp only
  split
  next t refused => rw [defer_cfg, cfg_of_answer refused (placeObject_cfg ..)]
  next loc t placed =>
    have kept : t.cfg = s.cfg := cfg_of_answer placed (placeObject_cfg ..)
    split
    · rw [formRecord_cfg, kept]
    · split
      next u made => rw [formRecord_cfg, cfg_of_answer made (insertEntry_cfg ..), kept]
      next u pending => rw [formRecord_cfg, cfg_of_answer pending (insertEntry_cfg ..), kept]

@[simp] theorem takeLookup_cfg (l : Lookup) (s : State) : (takeLookup l s).cfg = s.cfg := by
  unfold takeLookup
  dsimp only
  split
  · split <;> simp
  · simp

@[simp] theorem verifyUnmatched_cfg (i : Fin 64) (v : Verify) (fate : ChunkFate) (s : State) :
    (verifyUnmatched i v fate s).cfg = s.cfg := by
  unfold verifyUnmatched
  extract_lets _ given _ _ counted
  have counted_cfg : counted.cfg = s.cfg := by
    cases fate <;> simp [counted, given]
  split
  · exact counted_cfg
  · split
    next t refused => rw [defer_cfg, cfg_of_answer refused (placeObject_cfg ..), counted_cfg]
    next loc t placed => rw [formRecord_cfg, cfg_of_answer placed (placeObject_cfg ..), counted_cfg]

@[simp] theorem verifyCompared_cfg (i : Fin 64) (v : Verify) (stored : List Byte) (s : State) :
    (verifyCompared i v stored s).cfg = s.cfg := by
  unfold verifyCompared
  split <;> simp [verifyMatched]

@[simp] theorem verifyReadDone_cfg (i : Fin 64) (ticket : Nat) (result : OpResult) (bs : List Byte) (s : State) :
    (verifyReadDone i ticket result bs s).cfg = s.cfg := by
  unfold verifyReadDone
  split
  · split
    · cases result <;> simp
    · rfl
  · rfl

/-! ## The link -/

@[simp] theorem sendReply_cfg (kind : Byte) (tag : BitVec 16) (r : Reply) (s : State) :
    (sendReply kind tag r s).cfg = s.cfg := rfl

@[simp] theorem sendRestoreReply_cfg (kind : Byte) (tag : BitVec 16) (r : Reply) (s : State) :
    (sendRestoreReply kind tag r s).cfg = s.cfg := rfl

@[simp] theorem discardBadFrame_cfg (s : State) : (discardBadFrame s).cfg = s.cfg := by
  simp [discardBadFrame]

@[simp] theorem restoreReadDone_cfg (i : Fin 16) (result : OpResult) (bs : List Byte) (s : State) :
    (restoreReadDone i result bs s).cfg = s.cfg := by
  unfold restoreReadDone
  split <;> simp

@[simp] theorem startRestore_cfg (tag : BitVec 16) (q : ReadRequest) (seq off len : Nat) (s : State) :
    (startRestore tag q seq off len s).1.cfg = s.cfg := by
  unfold startRestore
  split
  · rfl
  next i _ =>
    have read := slabRead_cfg (.restore i) seq off len s
    split
    next bs t copied => exact cfg_of_answer copied read
    next t queued =>
      show t.cfg = s.cfg
      exact cfg_of_answer queued read
    next t absent => exact cfg_of_answer absent read

/-- A delivered frame leaves the installed count where the action that takes it does (R183). -/
theorem deliver_installed (i : Instr) (n : Nat) {taken : State → State}
    (keeps : ∀ t, (taken t).cfg.installed = t.cfg.installed) (s : State) :
    (deliver i n taken s).cfg.installed = s.cfg.installed := by
  unfold deliver
  split
  · rfl
  · split
    · split
      · simp
      · exact keeps s
    · rfl

/-! ## The rebuild -/

@[simp] theorem onRebuild_installed (s : State) (f : Rebuild → Rebuild) :
    (s.onRebuild f).cfg.installed = s.cfg.installed := rfl

@[simp] theorem onRebuildCounters_installed (s : State) (f : RebuildCounters → RebuildCounters) :
    (s.onRebuildCounters f).cfg.installed = s.cfg.installed := rfl

@[simp] theorem issueScan_installed (b : Fin 4) (s : State) : (issueScan b s).cfg.installed = s.cfg.installed := by
  unfold issueScan
  split
  · rfl
  · split <;> simp

@[simp] theorem beginScan_installed (s : State) : (beginScan s).cfg.installed = s.cfg.installed := by
  have issued (t : State) (b : Fin 4) :
      ((List.range Config.rebuildReads).foldl (fun u _ => issueScan b u) t).cfg.installed = t.cfg.installed :=
    foldl_keeps (·.cfg.installed) (fun u _ => issueScan_installed b u) (List.range Config.rebuildReads) t
  unfold beginScan
  exact foldl_keeps (·.cfg.installed) issued _ s

@[simp] theorem takeTrailer_installed (seq : Nat) (bs : List Byte) (s : State) (i : Nat) :
    (takeTrailer seq bs s i).cfg.installed = s.cfg.installed := by
  unfold takeTrailer
  dsimp only
  split
  · split <;> rfl
  · rfl
  · rfl
  · rfl

@[simp] theorem takeValidSlab_installed (p : Place) (bs : List Byte) (s : State) :
    (takeValidSlab p bs s).cfg.installed = s.cfg.installed :=
  foldl_keeps (·.cfg.installed) (takeTrailer_installed _ bs) _ _

@[simp] theorem classifySlab_installed (p : Place) (c : SlabCondition) (bs : List Byte) (s : State) :
    (classifySlab p c bs s).cfg.installed = s.cfg.installed := by
  cases c <;> simp [classifySlab]

@[simp] theorem classifySegment_installed (g : Nat) (t : Tally) (s : State) :
    (classifySegment g t s).cfg.installed = s.cfg.installed := by
  unfold classifySegment
  dsimp only
  split
  · rfl
  · split <;> simp

@[simp] theorem tallySlab_installed (g : Nat) (c : SlabCondition) (s : State) :
    (tallySlab g c s).cfg.installed = s.cfg.installed := by
  unfold tallySlab
  dsimp only
  split <;> simp

@[simp] theorem resumption_installed (s : State) : (resumption s).cfg.installed = s.cfg.installed := by
  unfold resumption
  dsimp only
  split <;> simp

@[simp] theorem countObjects_cfg (s : State) (e : Nat × Recipe) : (countObjects s e).cfg = s.cfg := rfl

@[simp] theorem issueRecounts_cfg (done : Fin 4) (blocks : List (Nat × Nat)) (s : State) :
    (issueRecounts done blocks s).2.cfg = s.cfg := by
  induction blocks generalizing s with
  | nil => rfl
  | cons x rest ih =>
    unfold issueRecounts
    split
    · exact ih s
    · split <;> simp [ih]

@[simp] theorem beginRecount_installed (done : Fin 4) (s : State) :
    (beginRecount done s).cfg.installed = s.cfg.installed := by
  have counted : (s.rcu.catalog.foldl countObjects s).cfg = s.cfg := foldl_keeps State.cfg countObjects_cfg _ s
  unfold beginRecount
  dsimp only
  split <;> simp [counted]

@[simp] theorem issueNextRecount_installed (b : Fin 4) (s : State) :
    (issueNextRecount b s).cfg.installed = s.cfg.installed := by
  unfold issueNextRecount
  dsimp only
  split
  · rfl
  · split <;> simp

@[simp] theorem countBlock_cfg (n k : Nat) (result : OpResult) (bs : List Byte) (s : State) :
    (countBlock n k result bs s).cfg = s.cfg := by
  unfold countBlock
  split
  · rfl
  · split
    · rfl
    · split <;> rfl

@[simp] theorem recountReadDone_installed (b : Fin 4) (n k : Nat) (result : OpResult) (bs : List Byte) (s : State) :
    (recountReadDone b n k result bs s).cfg.installed = s.cfg.installed := by
  unfold recountReadDone
  split
  · rfl
  · dsimp only
    split <;> simp

@[simp] theorem catalogJudgement_installed (done : Fin 4) (s : State) :
    (catalogJudgement done s).cfg.installed = s.cfg.installed := by
  unfold catalogJudgement
  dsimp only
  split <;> simp

@[simp] theorem scanReadDone_installed (b : Fin 4) (p : Place) (result : OpResult) (bs : List Byte) (s : State) :
    (scanReadDone b p result bs s).cfg.installed = s.cfg.installed := by
  unfold scanReadDone
  split
  · rfl
  · dsimp only
    split <;> simp

@[simp] theorem beginRebuild_installed (s : State) : (beginRebuild s).cfg.installed = s.cfg.installed := by
  simp [beginRebuild]

/-! ## Programs and erases -/

@[simp] theorem programOk_cfg (q : Nat) (p : Place) (s : State) : (programOk q p s).cfg = s.cfg := by
  unfold programOk
  simp only [placementAvailable_cfg, commitDurable_cfg]
  split
  · split <;> simp
  · simp

@[simp] theorem programFail_cfg (b : Fin 4) (q : Nat) (p : Place) (s : State) :
    (programFail b q p s).cfg = s.cfg := by
  simp [programFail]

@[simp] theorem eraseOk_cfg (g : Nat) (s : State) : (eraseOk g s).cfg = s.cfg := by
  simp [eraseOk]

@[simp] theorem eraseFail_cfg (b : Fin 4) (g : Nat) (s : State) : (eraseFail b g s).cfg = s.cfg := by
  simp [eraseFail]

end Sys2Proof.Proofs

/-! The installed segment count over one command (R187): a reset reads it from the strap, and no other command
writes it. Each owner's part of a request first, then the outcomes, then the commands one by one. -/

namespace Sys2Proof.Proofs

open Sys2Proof Sys2Proof.Machine

/-! ## What an owner does in the action that takes a request -/

@[simp] theorem takeStart_installed (s : State) : (takeStart s).1.cfg.installed = s.cfg.installed := by
  unfold takeStart
  split
  · split
    · rw [beginRebuild_installed]
      rfl
    · rfl
  · rfl

@[simp] theorem takeStop_installed (s : State) : (takeStop s).1.cfg.installed = s.cfg.installed := by
  unfold takeStop
  split
  · split
    · simp [abandonWalk]
    · rfl
  · rfl

@[simp] theorem publish_installed (p : Fin 4) (s : State) : (publish p s).cfg.installed = s.cfg.installed := rfl

@[simp] theorem publishAll_installed (s : State) : (publishAll s).cfg.installed = s.cfg.installed :=
  foldl_keeps (·.cfg.installed) (fun t p => publish_installed p t) _ s

@[simp] theorem writeSetting_installed (n : Fin 26) (v : Nat) (s : State) :
    (writeSetting n v s).cfg.installed = s.cfg.installed := by
  unfold writeSetting
  dsimp only
  split
  · rfl
  · split <;> rfl
  · split
    · simp
    · split <;> simp

@[simp] theorem takeWriteSetting_installed (p : List Byte) (s : State) :
    (takeWriteSetting p s).1.cfg.installed = s.cfg.installed := by
  unfold takeWriteSetting
  dsimp only
  split <;> simp

@[simp] theorem takeReadSettings_fst (p : List Byte) (s : State) : (takeReadSettings p s).1 = s := by
  unfold takeReadSettings
  dsimp only
  split <;> rfl

/-- A request on a slot leaves the Settings Unit where its owner's rule does (R3). -/
theorem onSlot_cfg (p : List Byte) {own : Fin 64 → State → State × Reply}
    (keeps : ∀ i t, (own i t).1.cfg = t.cfg) (s : State) : (onSlot p own s).1.cfg = s.cfg := by
  unfold onSlot
  split
  · rfl
  · split
    · exact keeps _ s
    · rfl

@[simp] theorem openStream_cfg (i : Fin 64) (o : OpenFields) (p : Fin 4) (n : Nat) (s : State) :
    (openStream i o p n s).1.cfg = s.cfg := by
  unfold openStream
  dsimp only
  split <;> simp

@[simp] theorem takeOpenStream_cfg (p : List Byte) (s : State) : (takeOpenStream p s).1.cfg = s.cfg := by
  unfold takeOpenStream
  dsimp only
  (repeat' split) <;> simp

@[simp] theorem streamData_cfg (data : List Byte) (i : Fin 64) (s : State) :
    (streamData data i s).1.cfg = s.cfg := by
  unfold streamData
  dsimp only
  (repeat' split) <;> rfl

@[simp] theorem closeStream_cfg (i : Fin 64) (s : State) : (closeStream i s).1.cfg = s.cfg := by
  unfold closeStream
  dsimp only
  split <;> simp

@[simp] theorem abortStream_cfg (i : Fin 64) (s : State) : (abortStream i s).1.cfg = s.cfg := by
  unfold abortStream
  split <;> simp

@[simp] theorem retireStream_cfg (i : Fin 64) (s : State) : (retireStream i s).1.cfg = s.cfg := by
  unfold retireStream
  split <;> simp

@[simp] theorem setStreamOption_cfg (p : List Byte) (i : Fin 64) (s : State) :
    (setStreamOption p i s).1.cfg = s.cfg := by
  unfold setStreamOption
  dsimp only
  (repeat' split) <;> rfl

@[simp] theorem takeTakeNotice_cfg (s : State) : (takeTakeNotice s).1.cfg = s.cfg := by
  unfold takeTakeNotice
  split <;> rfl

@[simp] theorem takeSetNoticeMask_cfg (p : List Byte) (s : State) : (takeSetNoticeMask p s).1.cfg = s.cfg := by
  unfold takeSetNoticeMask
  dsimp only
  split <;> rfl

@[simp] theorem latchSlot_cfg (i : Fin 64) (s : State) : (latchSlot i s).cfg = s.cfg := by
  unfold latchSlot
  split <;> rfl

@[simp] theorem latchDevice_cfg (s : State) : (latchDevice s).cfg = s.cfg := by
  unfold latchDevice
  split <;> rfl

@[simp] theorem takeTakeSnapshot_cfg (p : List Byte) (s : State) : (takeTakeSnapshot p s).1.cfg = s.cfg := by
  have latched (slots : List (Fin 64)) : (slots.foldl (fun u i => latchSlot i u) s).cfg = s.cfg :=
    foldl_keeps State.cfg (fun u i => latchSlot_cfg i u) slots s
  unfold takeTakeSnapshot
  dsimp only
  split
  · rfl
  · split <;> simp [latched]

@[simp] theorem takeReadSnapshot_cfg (p : List Byte) (s : State) : (takeReadSnapshot p s).1.cfg = s.cfg := by
  unfold takeReadSnapshot
  dsimp only
  (repeat' split) <;> rfl

@[simp] theorem takeSetDay_cfg (p : List Byte) (s : State) : (takeSetDay p s).1.cfg = s.cfg := by
  unfold takeSetDay
  dsimp only
  (repeat' split) <;> rfl

@[simp] theorem takeReadRetention_fst (p : List Byte) (s : State) : (takeReadRetention p s).1 = s := by
  unfold takeReadRetention
  dsimp only
  split <;> rfl

@[simp] theorem takeSetHold_cfg (p : List Byte) (s : State) : (takeSetHold p s).1.cfg = s.cfg := by
  unfold takeSetHold
  dsimp only
  (repeat' split) <;> rfl

@[simp] theorem takeClearHold_cfg (p : List Byte) (s : State) : (takeClearHold p s).1.cfg = s.cfg := by
  unfold takeClearHold
  dsimp only
  (repeat' split) <;> rfl

@[simp] theorem takeSetFreeze_cfg (s : State) : (takeSetFreeze s).1.cfg = s.cfg := by
  unfold takeSetFreeze
  (repeat' split) <;> rfl

@[simp] theorem takeClearFreeze_cfg (s : State) : (takeClearFreeze s).1.cfg = s.cfg := by
  unfold takeClearFreeze
  (repeat' split) <;> rfl

@[simp] theorem takeListRecipes_fst (p : List Byte) (s : State) : (takeListRecipes p s).1 = s := by
  unfold takeListRecipes
  dsimp only
  (repeat' split) <;> rfl

@[simp] theorem takeReadRecipeHead_fst (p : List Byte) (s : State) : (takeReadRecipeHead p s).1 = s := by
  unfold takeReadRecipeHead
  dsimp only
  (repeat' split) <;> rfl

@[simp] theorem takeReadRecipe_cfg (tag : BitVec 16) (p : List Byte) (s : State) :
    (takeReadRecipe tag p s).1.cfg = s.cfg := by
  unfold takeReadRecipe readRecipe
  dsimp only
  (repeat' split) <;> simp

@[simp] theorem takeReadChunk_cfg (tag : BitVec 16) (p : List Byte) (s : State) :
    (takeReadChunk tag p s).1.cfg = s.cfg := by
  unfold takeReadChunk
  dsimp only
  (repeat' split) <;> simp

@[simp] theorem takeReclaim_cfg (p : List Byte) (s : State) : (takeReclaim p s).1.cfg = s.cfg := by
  unfold takeReclaim
  dsimp only
  split <;> simp

/-! ## Outcomes -/

/-- Where a command answers a next state, that state has the installed count of the first. -/
def KeepsInstalled (s : State) (o : Out) : Prop := ∀ t, o = .next t → t.cfg.installed = s.cfg.installed

namespace KeepsInstalled

variable {s : State}

theorem act {t : State} (kept : t.cfg.installed = s.cfg.installed) : KeepsInstalled s (act t) := by
  intro u answered
  rw [act_eq_next.1 answered, endAction_cfg, kept]

theorem absent (m : Missing) : KeepsInstalled s (absent m) := fun _ h => by cases h

theorem request (kind : Byte) (i : Instr) (f : Frame) {take : State → State × Reply}
    (keeps : ∀ t, (take t).1.cfg.installed = t.cfg.installed) : KeepsInstalled s (request kind i f take s) := by
  refine .act (deliver_installed _ _ (fun t => ?_) s)
  split
  · exact keeps t
  · rfl

theorem restoreRequest (kind : Byte) (i : Instr) (f : Frame) {take : State → State × Option Reply}
    (keeps : ∀ t, (take t).1.cfg.installed = t.cfg.installed) :
    KeepsInstalled s (restoreRequest kind i f take s) := by
  refine .act (deliver_installed _ _ (fun t => ?_) s)
  split
  · split <;> exact keeps t
  · rfl

theorem readCompletes (b : Fin 4) (result : OpResult) (j : ReadJob) {pass : List Byte → State → State}
    (keeps : ∀ bs t, (pass bs t).cfg.installed = t.cfg.installed) :
    KeepsInstalled s (readCompletes b result j pass s) := by
  refine .act ?_
  rw [stoppingCheck_installed, finishBank_cfg, keeps]
  cases result <;> rfl

end KeepsInstalled

/-! ## The commands -/

section Commands

variable (s : State)

theorem execReset_keepsInstalled (f : Frame) : KeepsInstalled s (execReset f s) := by
  refine .act (deliver_installed _ _ (fun t => ?_) s)
  split <;> rfl

theorem execBadFrame_keepsInstalled (bytes : List Byte) : KeepsInstalled s (execBadFrame bytes s) := by
  unfold execBadFrame
  split
  · refine .act ?_
    split
    · rfl
    · split <;> simp
  · exact .absent _

theorem execUnknownRequestKind_keepsInstalled (kind : Byte) (f : Frame) :
    KeepsInstalled s (execUnknownRequestKind kind f s) := by
  unfold execUnknownRequestKind
  split
  · exact .absent _
  · exact .act (deliver_installed _ _ (fun t => congrArg Cfg.installed (sendReply_cfg ..)) s)

theorem execFrameTransmit_keepsInstalled : KeepsInstalled s (execFrameTransmit s) := by
  unfold execFrameTransmit
  split
  · exact .absent _
  · split
    · exact .absent _
    · exact .act rfl

theorem execRstRelease_keepsInstalled : KeepsInstalled s (execRstRelease s) := by
  unfold execRstRelease
  dsimp only
  split
  · split
    · exact .act (by simp)
    · exact .act rfl
  · exact .act rfl

theorem execScanByte_keepsInstalled (i : Fin 64) : KeepsInstalled s (execScanByte i s) := by
  unfold execScanByte
  split
  · exact .absent _
  · refine .act ?_
    split <;> simp

theorem execDigestComplete_keepsInstalled : KeepsInstalled s (execDigestComplete s) := by
  unfold execDigestComplete
  split
  · exact .absent _
  · dsimp only
    split
    · exact .absent _
    · exact .act (by simp)

theorem execLookupTaken_keepsInstalled : KeepsInstalled s (execLookupTaken s) := by
  unfold execLookupTaken
  split
  · exact .absent _
  · exact .act (by simp)

theorem execVerifyCompare_keepsInstalled (i : Fin 64) (ticket : Nat) :
    KeepsInstalled s (execVerifyCompare i ticket s) := by
  unfold execVerifyCompare
  split
  · split
    · exact .act (by simp)
    · exact .act rfl
  · exact .act rfl

theorem execProgramComplete_keepsInstalled (b : Fin 4) (result : OpResult) :
    KeepsInstalled s (execProgramComplete b result s) := by
  unfold execProgramComplete
  split
  · cases result <;> exact .act (by simp)
  · exact .absent _

theorem execEraseComplete_keepsInstalled (b : Fin 4) (result : OpResult) :
    KeepsInstalled s (execEraseComplete b result s) := by
  unfold execEraseComplete
  split
  · cases result <;> exact .act (by simp)
  · exact .absent _

theorem execRetentionWriteComplete_keepsInstalled : KeepsInstalled s (execRetentionWriteComplete s) := by
  unfold execRetentionWriteComplete
  split
  · exact .absent _
  · dsimp only
    split
    · exact .act rfl
    · exact .act (by simp)

theorem execCondemnTaken_keepsInstalled (b : Fin 4) : KeepsInstalled s (execCondemnTaken b s) := by
  unfold execCondemnTaken
  split
  · exact .absent _
  · split <;> exact .act (by simp)

/-- A reset that takes effect reads the strap (R187, R189); a line that stood asserted already has no edge. -/
theorem exec_resetEvent_installed {c : Instr} {t : State} (reset : isResetEvent c = true)
    (answered : exec c s = .next t) :
    t.cfg.installed = s.cfg.installed ∨ t.cfg.installed = s.lines.strap.count := by
  cases c with
  | resetTakesEffect =>
    simp only [exec, execResetTakesEffect] at answered
    split at answered
    · exact .inr (by rw [act_eq_next.1 answered]; rfl)
    · cases answered
  | rstAssert =>
    simp only [exec, execRstAssert] at answered
    split at answered
    · exact .inl (by rw [act_eq_next.1 answered]; rfl)
    · exact .inr (by rw [act_eq_next.1 answered]; rfl)
  | powerOn => exact .inr (by rw [act_eq_next.1 answered]; rfl)
  | powerLoss => exact .inr (by rw [act_eq_next.1 answered]; rfl)
  | _ => cases reset

/-- Only a reset reads the strap: no other command changes the installed count (R187). -/
theorem exec_keepsInstalled {c : Instr} (run : isResetEvent c = false) : KeepsInstalled s (exec c s) := by
  cases c with
  | resetTakesEffect | rstAssert | powerOn | powerLoss => cases run
  | identify f | storeStatus f | clearStoreFaults f => exact .request _ _ f fun _ => rfl
  | start f => exact .request _ _ f takeStart_installed
  | stop f => exact .request _ _ f takeStop_installed
  | reset f => exact execReset_keepsInstalled s f
  | closeStream f => exact .request _ _ f fun t => by rw [onSlot_cfg _ closeStream_cfg]
  | abortStream f => exact .request _ _ f fun t => by rw [onSlot_cfg _ abortStream_cfg]
  | retireStream f => exact .request _ _ f fun t => by rw [onSlot_cfg _ retireStream_cfg]
  | streamData f => exact .request _ _ f fun t => by rw [onSlot_cfg _ (streamData_cfg _)]
  | setStreamOption f => exact .request _ _ f fun t => by rw [onSlot_cfg _ (setStreamOption_cfg _)]
  | writeSetting f | readSettings f | openStream f | takeNotice f | setNoticeMask f | takeSnapshot f
  | readSnapshot f | setDay f | readRetention f | setHold f | clearHold f | setFreeze f | clearFreeze f
  | listRecipes f | readRecipeHead f | reclaim f => exact .request _ _ f (by simp)
  | readRecipe f | readChunk f => exact .restoreRequest _ _ f (by simp)
  | badFrame bytes => exact execBadFrame_keepsInstalled s bytes
  | unknownRequestKind kind f => exact execUnknownRequestKind_keepsInstalled s kind f
  | frameTransmit => exact execFrameTransmit_keepsInstalled s
  | rstRelease => exact execRstRelease_keepsInstalled s
  | custodyChange asserted => exact .act rfl
  | scanByte i => exact execScanByte_keepsInstalled s i
  | digestComplete => exact execDigestComplete_keepsInstalled s
  | lookupTaken => exact execLookupTaken_keepsInstalled s
  | verifyCompare i ticket => exact execVerifyCompare_keepsInstalled s i ticket
  | programComplete b result => exact execProgramComplete_keepsInstalled s b result
  | verifyReadComplete b result | walkBlockReadComplete b result | restoreReadComplete b result
  | scanReadComplete b result | recountReadComplete b result =>
    dsimp only [exec, execVerifyReadComplete, execWalkBlockReadComplete, execRestoreReadComplete,
      execScanReadComplete, execRecountReadComplete]
    split
    · exact .readCompletes _ _ _ (by simp)
    · exact .absent _
  | eraseComplete b result => exact execEraseComplete_keepsInstalled s b result
  | retentionWriteComplete => exact execRetentionWriteComplete_keepsInstalled s
  | condemnTaken b => exact execCondemnTaken_keepsInstalled s b

end Commands

end Sys2Proof.Proofs

/-! Identify (R187): the description's 46 bytes, and the installed segment count that they carry. -/

namespace Sys2Proof.Proofs

open Sys2Proof Sys2Proof.Machine

/-! ## The description -/

/-- Identify is answered by LIF in one action and changes nothing else (R182, R187). -/
theorem exec_identify (tag : BitVec 16) {s : State} (hs : Listening s) :
    exec (.identify (sound tag [])) s = answer 0x01#8 tag ⟨.ok, identifyBody s.cfg.installed s.cfg.mode⟩ s :=
  request_answer hs 0x01#8 _ (f := sound tag [])
    (take := fun t => (t, ⟨.ok, identifyBody t.cfg.installed t.cfg.mode⟩)) (Nat.zero_le _) rfl rfl

@[simp] theorem identifyBody_length (installed : Nat) (m : Mode) : (identifyBody installed m).length = 46 := by
  simp [identifyBody, padText, zeros]

/-- The description, byte by byte: the part's maker and name, padded, its revision, the segments installed, the
capacities, and the mode (R187). -/
theorem identifyBody_eq (installed : Nat) (m : Mode) :
    identifyBody installed m =
      [0x50#8, 0x61#8, 0x6A#8, 0x6D#8, 0x6F#8, 0x72#8, 0x61#8] ++ List.replicate 9 0#8 ++
        [0x50#8, 0x44#8, 0x2D#8, 0x38#8, 0x31#8, 0x36#8] ++ List.replicate 10 0#8 ++
        [0x01#8] ++ beBytes 2 installed ++ [4#8] ++ [64#8] ++ beBytes 4 8388608 ++
        beBytes 2 4096 ++ beBytes 2 1024 ++
        [match m with
          | .standby => 0x00#8
          | .rebuilding => 0x01#8
          | .operating => 0x02#8
          | .stopping => 0x03#8] := by
  cases m <;> rfl

/-- Settles O7: only a reset writes the installed count, from the strap; the reply is LIF's own description. -/
theorem identifyAnswersDescription : Obligations.IdentifyAnswersDescription := by
  refine ⟨fun c s t answered => ?installed, fun tag s hs => ?description⟩
  case installed =>
    by_cases reset : isResetEvent c = true
    · exact (exec_resetEvent_installed s reset answered).imp_right fun strap => ⟨reset, strap⟩
    · exact .inl (exec_keepsInstalled s (Bool.eq_false_of_not_eq_true reset) t answered)
  case description =>
    exact ⟨_, identifyBody_length .., identifyBody_eq .., exec_identify tag hs⟩

end Sys2Proof.Proofs
